-- ==== Sys2Proof/Word.lean ====
section
/-! DEFINITION. The word types of THERMY-CORE (`00_scope.md` R9, R10): every value is an unsigned integer of a stated
width, and a byte sequence is indexed from 0 with byte 0 first. -/

namespace Sys2Proof

/-- One byte: the unit of every host transaction (R63) and of every byte array (R42). -/
abbrev Byte := BitVec 8

/-- A 16-bit register value: FRAME_LEN, KEY_VALID, RES_TEMP, RES_HUM (R23). -/
abbrev HalfWord := BitVec 16

/-- A 16-byte cipher block, byte 0 first (R66): BLK, the ciphertext, the plaintext, and also the key's bytes. -/
abbrev Block := Vector Byte 16

/-- A 6-byte device signature (R35). -/
abbrev Signature := Vector Byte 6

/-- The 24 stored bytes of a frame (R36). -/
abbrev FrameBytes := Vector Byte 24

end Sys2Proof
end

