-- ==== Sys2Proof/Machine/Aes.lean ====
section
/-! DEFINITION. AES-128 on one block, as `41_cipher.md` R130 to R142 define it. Only the functions `cipher` and
`invCipher` are architectural (R142); the state array, the round counter and the key schedule live inside one step and
are no part of State (R40). -/

namespace Sys2Proof.Machine.Aes

/-- One column of the state array, row 0 first; also one four-byte word of the key schedule (R130, R140). -/
structure Col where
  r0 : Byte
  r1 : Byte
  r2 : Byte
  r3 : Byte
deriving DecidableEq, Repr

/-- The 4 x 4 state array as its four columns: `s[r, c]` is row `r` of column `c` (R130). -/
structure Array4 where
  c0 : Col
  c1 : Col
  c2 : Col
  c3 : Col
deriving DecidableEq, Repr

/-- R130: `s[r, c] = in[r + 4c]`. -/
def load (x : Block) : Array4 :=
  ⟨⟨x[0], x[1], x[2], x[3]⟩, ⟨x[4], x[5], x[6], x[7]⟩, ⟨x[8], x[9], x[10], x[11]⟩, ⟨x[12], x[13], x[14], x[15]⟩⟩

/-- R130: `out[r + 4c] = s[r, c]`. -/
def store (s : Array4) : Block :=
  #v[s.c0.r0, s.c0.r1, s.c0.r2, s.c0.r3, s.c1.r0, s.c1.r1, s.c1.r2, s.c1.r3,
     s.c2.r0, s.c2.r1, s.c2.r2, s.c2.r3, s.c3.r0, s.c3.r1, s.c3.r2, s.c3.r3]

/-- R131: multiplication by 0x02 modulo 0x11B; the 8-bit shift drops the bit that R131's `& 0xFF` drops. -/
def xtime (b : Byte) : Byte :=
  (b <<< 1) ^^^ (if b.getLsbD 7 then 0x1B#8 else 0x00#8)

/-- `xtime` applied `k` times (R131). -/
def xtimes : Nat → Byte → Byte
  | 0, a => a
  | k + 1, a => xtime (xtimes k a)

/-- R131: `a • b` is the exclusive-or of `xtime^k(a)` over the set bits `k` of `b`. -/
def gmul (a b : Byte) : Byte :=
  (List.range 8).foldl (fun acc k => if b.getLsbD k then acc ^^^ xtimes k a else acc) 0#8

/-- The S-box table, row `Hx`, column `xL` (R132). -/
def sboxRows : List (List Nat) :=
  [[0x63, 0x7C, 0x77, 0x7B, 0xF2, 0x6B, 0x6F, 0xC5, 0x30, 0x01, 0x67, 0x2B, 0xFE, 0xD7, 0xAB, 0x76]] ++
  [[0xCA, 0x82, 0xC9, 0x7D, 0xFA, 0x59, 0x47, 0xF0, 0xAD, 0xD4, 0xA2, 0xAF, 0x9C, 0xA4, 0x72, 0xC0]] ++
  [[0xB7, 0xFD, 0x93, 0x26, 0x36, 0x3F, 0xF7, 0xCC, 0x34, 0xA5, 0xE5, 0xF1, 0x71, 0xD8, 0x31, 0x15]] ++
  [[0x04, 0xC7, 0x23, 0xC3, 0x18, 0x96, 0x05, 0x9A, 0x07, 0x12, 0x80, 0xE2, 0xEB, 0x27, 0xB2, 0x75]] ++
  [[0x09, 0x83, 0x2C, 0x1A, 0x1B, 0x6E, 0x5A, 0xA0, 0x52, 0x3B, 0xD6, 0xB3, 0x29, 0xE3, 0x2F, 0x84]] ++
  [[0x53, 0xD1, 0x00, 0xED, 0x20, 0xFC, 0xB1, 0x5B, 0x6A, 0xCB, 0xBE, 0x39, 0x4A, 0x4C, 0x58, 0xCF]] ++
  [[0xD0, 0xEF, 0xAA, 0xFB, 0x43, 0x4D, 0x33, 0x85, 0x45, 0xF9, 0x02, 0x7F, 0x50, 0x3C, 0x9F, 0xA8]] ++
  [[0x51, 0xA3, 0x40, 0x8F, 0x92, 0x9D, 0x38, 0xF5, 0xBC, 0xB6, 0xDA, 0x21, 0x10, 0xFF, 0xF3, 0xD2]] ++
  [[0xCD, 0x0C, 0x13, 0xEC, 0x5F, 0x97, 0x44, 0x17, 0xC4, 0xA7, 0x7E, 0x3D, 0x64, 0x5D, 0x19, 0x73]] ++
  [[0x60, 0x81, 0x4F, 0xDC, 0x22, 0x2A, 0x90, 0x88, 0x46, 0xEE, 0xB8, 0x14, 0xDE, 0x5E, 0x0B, 0xDB]] ++
  [[0xE0, 0x32, 0x3A, 0x0A, 0x49, 0x06, 0x24, 0x5C, 0xC2, 0xD3, 0xAC, 0x62, 0x91, 0x95, 0xE4, 0x79]] ++
  [[0xE7, 0xC8, 0x37, 0x6D, 0x8D, 0xD5, 0x4E, 0xA9, 0x6C, 0x56, 0xF4, 0xEA, 0x65, 0x7A, 0xAE, 0x08]] ++
  [[0xBA, 0x78, 0x25, 0x2E, 0x1C, 0xA6, 0xB4, 0xC6, 0xE8, 0xDD, 0x74, 0x1F, 0x4B, 0xBD, 0x8B, 0x8A]] ++
  [[0x70, 0x3E, 0xB5, 0x66, 0x48, 0x03, 0xF6, 0x0E, 0x61, 0x35, 0x57, 0xB9, 0x86, 0xC1, 0x1D, 0x9E]] ++
  [[0xE1, 0xF8, 0x98, 0x11, 0x69, 0xD9, 0x8E, 0x94, 0x9B, 0x1E, 0x87, 0xE9, 0xCE, 0x55, 0x28, 0xDF]] ++
  [[0x8C, 0xA1, 0x89, 0x0D, 0xBF, 0xE6, 0x42, 0x68, 0x41, 0x99, 0x2D, 0x0F, 0xB0, 0x54, 0xBB, 0x16]]

/-- The inverse S-box table, row `Hx`, column `xL` (R133). -/
def invSboxRows : List (List Nat) :=
  [[0x52, 0x09, 0x6A, 0xD5, 0x30, 0x36, 0xA5, 0x38, 0xBF, 0x40, 0xA3, 0x9E, 0x81, 0xF3, 0xD7, 0xFB]] ++
  [[0x7C, 0xE3, 0x39, 0x82, 0x9B, 0x2F, 0xFF, 0x87, 0x34, 0x8E, 0x43, 0x44, 0xC4, 0xDE, 0xE9, 0xCB]] ++
  [[0x54, 0x7B, 0x94, 0x32, 0xA6, 0xC2, 0x23, 0x3D, 0xEE, 0x4C, 0x95, 0x0B, 0x42, 0xFA, 0xC3, 0x4E]] ++
  [[0x08, 0x2E, 0xA1, 0x66, 0x28, 0xD9, 0x24, 0xB2, 0x76, 0x5B, 0xA2, 0x49, 0x6D, 0x8B, 0xD1, 0x25]] ++
  [[0x72, 0xF8, 0xF6, 0x64, 0x86, 0x68, 0x98, 0x16, 0xD4, 0xA4, 0x5C, 0xCC, 0x5D, 0x65, 0xB6, 0x92]] ++
  [[0x6C, 0x70, 0x48, 0x50, 0xFD, 0xED, 0xB9, 0xDA, 0x5E, 0x15, 0x46, 0x57, 0xA7, 0x8D, 0x9D, 0x84]] ++
  [[0x90, 0xD8, 0xAB, 0x00, 0x8C, 0xBC, 0xD3, 0x0A, 0xF7, 0xE4, 0x58, 0x05, 0xB8, 0xB3, 0x45, 0x06]] ++
  [[0xD0, 0x2C, 0x1E, 0x8F, 0xCA, 0x3F, 0x0F, 0x02, 0xC1, 0xAF, 0xBD, 0x03, 0x01, 0x13, 0x8A, 0x6B]] ++
  [[0x3A, 0x91, 0x11, 0x41, 0x4F, 0x67, 0xDC, 0xEA, 0x97, 0xF2, 0xCF, 0xCE, 0xF0, 0xB4, 0xE6, 0x73]] ++
  [[0x96, 0xAC, 0x74, 0x22, 0xE7, 0xAD, 0x35, 0x85, 0xE2, 0xF9, 0x37, 0xE8, 0x1C, 0x75, 0xDF, 0x6E]] ++
  [[0x47, 0xF1, 0x1A, 0x71, 0x1D, 0x29, 0xC5, 0x89, 0x6F, 0xB7, 0x62, 0x0E, 0xAA, 0x18, 0xBE, 0x1B]] ++
  [[0xFC, 0x56, 0x3E, 0x4B, 0xC6, 0xD2, 0x79, 0x20, 0x9A, 0xDB, 0xC0, 0xFE, 0x78, 0xCD, 0x5A, 0xF4]] ++
  [[0x1F, 0xDD, 0xA8, 0x33, 0x88, 0x07, 0xC7, 0x31, 0xB1, 0x12, 0x10, 0x59, 0x27, 0x80, 0xEC, 0x5F]] ++
  [[0x60, 0x51, 0x7F, 0xA9, 0x19, 0xB5, 0x4A, 0x0D, 0x2D, 0xE5, 0x7A, 0x9F, 0x93, 0xC9, 0x9C, 0xEF]] ++
  [[0xA0, 0xE0, 0x3B, 0x4D, 0xAE, 0x2A, 0xF5, 0xB0, 0xC8, 0xEB, 0xBB, 0x3C, 0x83, 0x53, 0x99, 0x61]] ++
  [[0x17, 0x2B, 0x04, 0x7E, 0xBA, 0x77, 0xD6, 0x26, 0xE1, 0x69, 0x14, 0x63, 0x55, 0x21, 0x0C, 0x7D]]

/-- Entry `0xHL` of a table of 16 rows: row `H`, column `L` (R132). -/
def tableAt (rows : List (List Nat)) (a : Byte) : Byte :=
  BitVec.ofNat 8 ((rows.getD (a.toNat / 16) []).getD (a.toNat % 16) 0)

/-- SBOX (R132). -/
def sbox (a : Byte) : Byte := tableAt sboxRows a

/-- INV_SBOX (R133). -/
def invSbox (a : Byte) : Byte := tableAt invSboxRows a

/-- A byte function on every byte of a column. -/
def mapCol (f : Byte → Byte) (c : Col) : Col := ⟨f c.r0, f c.r1, f c.r2, f c.r3⟩

/-- A column function on every column of the state. -/
def mapCols (f : Col → Col) (s : Array4) : Array4 := ⟨f s.c0, f s.c1, f s.c2, f s.c3⟩

/-- Bytewise exclusive-or of two columns. -/
def xorCol (a b : Col) : Col := ⟨a.r0 ^^^ b.r0, a.r1 ^^^ b.r1, a.r2 ^^^ b.r2, a.r3 ^^^ b.r3⟩

/-- SubBytes (R132). -/
def subBytes (s : Array4) : Array4 := mapCols (mapCol sbox) s

/-- InvSubBytes (R133). -/
def invSubBytes (s : Array4) : Array4 := mapCols (mapCol invSbox) s

/-- ShiftRows (R135): `s'[r, c] = s[r, (c + r) mod 4]`. -/
def shiftRows (s : Array4) : Array4 :=
  ⟨⟨s.c0.r0, s.c1.r1, s.c2.r2, s.c3.r3⟩, ⟨s.c1.r0, s.c2.r1, s.c3.r2, s.c0.r3⟩,
   ⟨s.c2.r0, s.c3.r1, s.c0.r2, s.c1.r3⟩, ⟨s.c3.r0, s.c0.r1, s.c1.r2, s.c2.r3⟩⟩

/-- InvShiftRows (R136): `s'[r, c] = s[r, (c - r) mod 4]`. -/
def invShiftRows (s : Array4) : Array4 :=
  ⟨⟨s.c0.r0, s.c3.r1, s.c2.r2, s.c1.r3⟩, ⟨s.c1.r0, s.c0.r1, s.c3.r2, s.c2.r3⟩,
   ⟨s.c2.r0, s.c1.r1, s.c0.r2, s.c3.r3⟩, ⟨s.c3.r0, s.c2.r1, s.c1.r2, s.c0.r3⟩⟩

/-- One column of MixColumns (R137). -/
def mixCol (s : Col) : Col :=
  ⟨gmul s.r0 0x02#8 ^^^ gmul s.r1 0x03#8 ^^^ s.r2 ^^^ s.r3,
   s.r0 ^^^ gmul s.r1 0x02#8 ^^^ gmul s.r2 0x03#8 ^^^ s.r3,
   s.r0 ^^^ s.r1 ^^^ gmul s.r2 0x02#8 ^^^ gmul s.r3 0x03#8,
   gmul s.r0 0x03#8 ^^^ s.r1 ^^^ s.r2 ^^^ gmul s.r3 0x02#8⟩

/-- One column of InvMixColumns (R138). -/
def invMixCol (s : Col) : Col :=
  ⟨gmul s.r0 0x0E#8 ^^^ gmul s.r1 0x0B#8 ^^^ gmul s.r2 0x0D#8 ^^^ gmul s.r3 0x09#8,
   gmul s.r0 0x09#8 ^^^ gmul s.r1 0x0E#8 ^^^ gmul s.r2 0x0B#8 ^^^ gmul s.r3 0x0D#8,
   gmul s.r0 0x0D#8 ^^^ gmul s.r1 0x09#8 ^^^ gmul s.r2 0x0E#8 ^^^ gmul s.r3 0x0B#8,
   gmul s.r0 0x0B#8 ^^^ gmul s.r1 0x0D#8 ^^^ gmul s.r2 0x09#8 ^^^ gmul s.r3 0x0E#8⟩

/-- MixColumns (R137). -/
def mixColumns (s : Array4) : Array4 := mapCols mixCol s

/-- InvMixColumns (R138). -/
def invMixColumns (s : Array4) : Array4 := mapCols invMixCol s

/-- AddRoundKey (R139): the round key exclusive-ored into the state, byte by byte. -/
def addRoundKey (k s : Array4) : Array4 :=
  ⟨xorCol s.c0 k.c0, xorCol s.c1 k.c1, xorCol s.c2 k.c2, xorCol s.c3 k.c3⟩

/-- RotWord (R140). -/
def rotWord (a : Col) : Col := ⟨a.r1, a.r2, a.r3, a.r0⟩

/-- SubWord (R140). -/
def subWord (a : Col) : Col := mapCol sbox a

/-- RC[1..10] (R140). -/
def roundConstant (n : Nat) : Byte :=
  BitVec.ofNat 8 ([0x00, 0x01, 0x02, 0x04, 0x08, 0x10, 0x20, 0x40, 0x80, 0x1B, 0x36].getD n 0)

/-- `w[i]` for `i ≥ 4` from `w[i-1]` and `w[i-4]` (R140). -/
def nextWord (i : Nat) (last fourBack : Col) : Col :=
  if i % 4 = 0 then xorCol fourBack (xorCol (subWord (rotWord last)) ⟨roundConstant (i / 4), 0#8, 0#8, 0#8⟩)
  else xorCol fourBack last

/-- The next `n` words from index `i` on, appended to the words so far, which are held newest first (R140). -/
def expandFrom : Nat → Nat → List Col → List Col
  | 0, _, ws => ws
  | n + 1, i, w1 :: w2 :: w3 :: w4 :: ws => expandFrom n (i + 1) (nextWord i w1 w4 :: w1 :: w2 :: w3 :: w4 :: ws)
  | _ + 1, _, ws => ws

/-- KeyExpansion (R140): the 44 words `w[0..43]`. -/
def keyExpansion (k : Block) : List Col :=
  (expandFrom 40 4 [(load k).c3, (load k).c2, (load k).c1, (load k).c0]).reverse

/-- Word `w[i]` of a key schedule. -/
def wordAt (w : List Col) (i : Nat) : Col := w.getD i ⟨0#8, 0#8, 0#8, 0#8⟩

/-- `RK[n] = w[4n] ++ w[4n+1] ++ w[4n+2] ++ w[4n+3]` (R139). -/
def roundKey (w : List Col) (n : Nat) : Array4 :=
  ⟨wordAt w (4 * n), wordAt w (4 * n + 1), wordAt w (4 * n + 2), wordAt w (4 * n + 3)⟩

/-- One of rounds 1 to 9 of Cipher (R141). -/
def cipherRound (w : List Col) (s : Array4) (n : Nat) : Array4 :=
  addRoundKey (roundKey w n) (mixColumns (shiftRows (subBytes s)))

/-- One of rounds 9 to 1 of InvCipher (R142). -/
def invCipherRound (w : List Col) (s : Array4) (n : Nat) : Array4 :=
  invMixColumns (addRoundKey (roundKey w n) (invSubBytes (invShiftRows s)))

/-- `Cipher(K, x)` (R141). -/
def cipher (k x : Block) : Block :=
  let w := keyExpansion k
  let s := [1, 2, 3, 4, 5, 6, 7, 8, 9].foldl (cipherRound w) (addRoundKey (roundKey w 0) (load x))
  store (addRoundKey (roundKey w 10) (shiftRows (subBytes s)))

/-- `InvCipher(K, y)` (R142). -/
def invCipher (k y : Block) : Block :=
  let w := keyExpansion k
  let s := [9, 8, 7, 6, 5, 4, 3, 2, 1].foldl (invCipherRound w) (addRoundKey (roundKey w 10) (load y))
  store (addRoundKey (roundKey w 0) (invSubBytes (invShiftRows s)))

end Sys2Proof.Machine.Aes
end

