-- ==== Sys2Proof/Config.lean ====
section
/-! DEFINITION. The implementation parameters of `00_scope.md` R8. The ones the document or a decision settles are plain
numbers; the two OPEN ones (CMD_LATENCY, D6; BUS_BINDING, D27) are constants without a body that no rule and no
definition of this model reads. -/

namespace Sys2Proof.Config

/-- MIN_LEN: the minimum frame length (R8, R112; `90_conflicts.md` C1). -/
def minLen : Nat := 22

/-- SIG_OFF: where the candidate signature starts in a frame (R8). -/
def sigOff : Nat := 2

/-- SIG_LEN: the length of the device signature (R8). -/
def sigLen : Nat := 6

/-- CT_OFF: where the ciphertext starts in a frame (R8). -/
def ctOff : Nat := 8

/-- CT_LEN: the required ciphertext length (R8). -/
def ctLen : Nat := 16

/-- BLOCK_LEN: the length of a cipher block (R8). -/
def blockLen : Nat := 16

/-- FIELD_MIN: how many plaintext bytes the extractor needs (R8). -/
def fieldMin : Nat := 5

/-- FRAME_CAP: how many frame bytes the block stores (R8, R77). -/
def frameCap : Nat := 24

/-- OPEN parameter CMD_LATENCY (R8, R262, U8): the time the command of opcode `d` takes. DESIGN CHOICE (notes 9), safe:
it has no value here, and nothing reads it. -/
opaque cmdLatency (d : Byte) : Nat

/-- OPEN parameter BUS_BINDING (R91, U9): which physical bus carries a host transaction. DESIGN CHOICE (notes 9), safe:
it has no value here, and nothing reads it. -/
opaque busBinding : Nat

end Sys2Proof.Config
end

