-- ==== Sys2Proof/Syntax.lean ====
section
/-! DEFINITION. The syntax of THERMY-CORE: one constructor of `Instr` for each row of `spec/opcode_table.json`, the raw
items a host gives the block, and the names under which a raw item is refused (R95). -/

namespace Sys2Proof

/-- The instructions: the nine commands of format CMD8 (R93), the seven rows of reserved opcodes, which together cover
0x09 to 0xFF (R94) and carry their opcode byte OPC, and the two host transactions of format HTX (R91). -/
inductive Instr where
  /-- NOP, OPC 0x00 (R204). -/
  | nop
  /-- FILTER, OPC 0x01 (R116). -/
  | filter
  /-- DECRYPT, OPC 0x02 (R150). -/
  | decrypt
  /-- ENCRYPT, OPC 0x03 (R151). -/
  | encrypt
  /-- EXTRACT, OPC 0x04 (R187). -/
  | extract
  /-- DECODE, OPC 0x05 (R188). -/
  | decode
  /-- PROCESS, OPC 0x06 (R201). -/
  | process
  /-- LOCK, OPC 0x07 (R202). -/
  | lock
  /-- CLEAR, OPC 0x08 (R203). -/
  | clear
  /-- RESERVED, the one opcode 0x09 (R205). -/
  | reserved09
  /-- RESERVED, opcodes 0x0A and 0x0B (R205). -/
  | reserved0A (opc : Byte)
  /-- RESERVED, opcodes 0x0C to 0x0F (R205). -/
  | reserved0C (opc : Byte)
  /-- RESERVED, opcodes 0x10 to 0x1F (R205). -/
  | reserved10 (opc : Byte)
  /-- RESERVED, opcodes 0x20 to 0x3F (R205). -/
  | reserved20 (opc : Byte)
  /-- RESERVED, opcodes 0x40 to 0x7F (R205). -/
  | reserved40 (opc : Byte)
  /-- RESERVED, opcodes 0x80 to 0xFF (R205). -/
  | reserved80 (opc : Byte)
  /-- HTX_WR: `HostWrite(ADDR, DATA)` (R62). -/
  | htxWr (addr data : Byte)
  /-- HTX_RD: `HostRead(ADDR)` (R61). -/
  | htxRd (addr : Byte)
deriving DecidableEq, Repr

/-- One item a host gives the block, before it is decoded, in one of the two formats of `30_encoding.md`. -/
inductive RawItem where
  /-- Format CMD8 (R90): a command byte, that is a host write of this byte to CMD. -/
  | cmd8 (d : Byte)
  /-- Format HTX (R91): a host-transaction word, as the number its hex digits stand for; it may be too wide (R95). -/
  | htx (w : Nat)
deriving DecidableEq, Repr

/-- Why a host-transaction word encodes no transaction (R95). -/
inductive DecodeError where
  /-- The word is wider than 24 bits. -/
  | wordTooWide
  /-- RSV, bits 23:17, is not 0. -/
  | reservedBitsSet
  /-- WR = 0 and DATA is not 0x00. -/
  | readWithData
deriving DecidableEq, Repr

end Sys2Proof
end

