-- ==== Sys2Proof/Machine/State.lean ====
section
/-! DEFINITION. The state of THERMY-CORE (`10_state.md` R20 to R42), its value after reset (`70_reset_and_hazards.md`
R251), and the named reasons for which a step stops. The last two fields are not the block's: they are the host agent's
program and the record of what its reads returned (R13, R263). -/

namespace Sys2Proof.Machine

/-- The outcome codes of STATUS.RESULT (R39). Codes 9 to 15 are reserved and have no name: no command produces them. -/
inductive ResultCode where
  | none | ok | tooShort | signatureMismatch | badCiphertextLength | decryptionFailed | malformedPlaintext
  | notConfigured | badCommand
deriving DecidableEq, Repr

/-- The byte arrays of the block whose bytes may hold no value (R35, R36, R38; KEY is never read unwritten, R37). -/
inductive ByteArrayName where
  | sig | blk | frame
deriving DecidableEq, Repr

/-- One thing the host side does to the block: a transaction (R60), or the platform's reset, which is asserted between
transactions and is one step with no transaction inside it (R250; `93_implementation_defined.md` U18). -/
inductive HostEvent where
  | transaction (item : RawItem)
  | reset
deriving DecidableEq, Repr

/-- Model faults (R12). -/
inductive Fault where
  /-- Raised by a host read and by FILTER, DECRYPT, ENCRYPT, EXTRACT, DECODE and PROCESS (each also when a host write to
  CMD runs it) on reading a byte that has not been written since reset: the spec's own model fault (R12, R70), which
  replaces every outcome of its step (R223 (f)). Safe: the hardware goes on with some value no source fixes, and the model
  stops. -/
  | unwrittenRead (array : ByteArrayName) (index : Nat)
deriving DecidableEq, Repr

/-- Refusals of the model (R12). -/
inductive Refusal where
  /-- Raised by an arm of `exec` for an instruction that has no meaning yet; no arm does. Safe: the model stops. -/
  | notModelled (mnemonic : String)
  /-- Raised by `step` when some item of the host's program encodes no transaction (R95): the reason and the item's
  position, counted from 0 in what is left of the program. Safe: such a program never starts (R263). -/
  | illegalWord (why : DecodeError) (position : Nat)
deriving DecidableEq, Repr

/-- Everything the spec gives the machine, then the host agent's two lists. -/
structure State where
  /-- STATUS (R24): RESULT 3:0, SIGCMP 4, DECRUN 5, EMIT 6, REC 7. -/
  status : Byte
  /-- CTRL.VERBOSE, bit 0 (R25). -/
  verbose : Bool
  /-- CTRL.LOCK, bit 1 (R25). -/
  locked : Bool
  /-- ERR (R26): LOCKED_WRITE 0, BAD_CMD 1, BAD_ACCESS 2. -/
  err : Byte
  /-- DEC_COUNT (R27). -/
  decCount : Byte
  /-- FRAME_LEN (R29). -/
  frameLen : HalfWord
  /-- SIG_W[0..5], read as SIG_VALID (R30). -/
  sigW : BitVec 6
  /-- KEY_W[0..15], read as KEY_VALID (R31). -/
  keyW : BitVec 16
  /-- RES_TEMP (R32). -/
  resTemp : HalfWord
  /-- RES_HUM (R33). -/
  resHum : HalfWord
  /-- RES_BATT (R34). -/
  resBatt : Byte
  /-- SIG[0..5] (R35). -/
  sig : Signature
  /-- KEY[0..15] (R37). -/
  key : Block
  /-- BLK[0..15] (R38). -/
  blk : Block
  /-- FRAME[0..23] (R36). -/
  frame : FrameBytes
  /-- BLK_W[0..15], the written-bits R40 has the model keep. -/
  blkW : BitVec 16
  /-- FRAME_W[0..23], the written-bits R40 has the model keep. -/
  frameW : BitVec 24
  /-- The model's own: what the host agent has still to do, in program order (R13, R73). -/
  program : List HostEvent
  /-- The model's own: the values the program's reads returned, in order (R263). -/
  reads : List Byte
deriving DecidableEq, Repr

/-- What a step, and every meaning, answers. -/
abbrev StepOutcome := Host.Outcome State Fault Refusal

/-- The machine right after reset (R251). SIG, KEY, BLK and FRAME have no reset value in the spec; the zeros they hold
here are a DESIGN CHOICE (notes 1), unsafe, that nothing reads while their written-bits are 0 (R70, R145). The host has
no program and has read nothing (notes 4). -/
def State.reset : State where
  status := 0x00#8
  verbose := false
  locked := false
  err := 0x00#8
  decCount := 0x00#8
  frameLen := 0x0000#16
  sigW := 0#6
  keyW := 0#16
  resTemp := 0x0000#16
  resHum := 0x0000#16
  resBatt := 0x00#8
  sig := Vector.replicate 6 0x00#8
  key := Vector.replicate 16 0x00#8
  blk := Vector.replicate 16 0x00#8
  frame := Vector.replicate 24 0x00#8
  blkW := 0#16
  frameW := 0#24
  program := []
  reads := []

end Sys2Proof.Machine
end

