-- ==== Sys2Proof/Machine/Flags.lean ====
section
/-! DEFINITION. STATUS and ERR: the outcome codes, the EMIT policy (`42_field_extract.md` R189), `finish`
(`43_pipeline_control.md` R200) and the sticky error bits (`10_state.md` R26). -/

namespace Sys2Proof.Machine

/-- The number of an outcome code (R39). -/
def resultNumber : ResultCode → Byte
  | .none => 0x0#8
  | .ok => 0x1#8
  | .tooShort => 0x2#8
  | .signatureMismatch => 0x3#8
  | .badCiphertextLength => 0x4#8
  | .decryptionFailed => 0x5#8
  | .malformedPlaintext => 0x6#8
  | .notConfigured => 0x7#8
  | .badCommand => 0x8#8

/-- A flag as a byte of value 0 or 1. -/
def flagByte (b : Bool) : Byte := if b then 1#8 else 0#8

/-- The EMIT policy (R189): a record, a decode failure, a configuration error and a bad command are emitted always; a
structural rejection only when verbose; an OK without a record and NONE never. -/
def emitPolicy (code : ResultCode) (record verbose : Bool) : Bool :=
  match code with
  | .none => false
  | .ok => record
  | .tooShort => verbose
  | .signatureMismatch => verbose
  | .badCiphertextLength => verbose
  | .decryptionFailed => true
  | .malformedPlaintext => true
  | .notConfigured => true
  | .badCommand => true

/-- The STATUS byte (R200): `(rec << 7) | (emit << 6) | (decrun << 5) | (sigcmp << 4) | code`. -/
def statusByte (code : ResultCode) (sigcmp decrun emit record : Bool) : Byte :=
  (flagByte record <<< 7) ||| (flagByte emit <<< 6) ||| (flagByte decrun <<< 5) ||| (flagByte sigcmp <<< 4)
    ||| resultNumber code

/-- STATUS.RESULT, bits 3:0 (R24). -/
def statusResult (v : Byte) : BitVec 4 := v.extractLsb' 0 4

/-- STATUS.SIGCMP, bit 4 (R24). -/
def statusSigcmp (v : Byte) : Bool := v.getLsbD 4

/-- STATUS.DECRUN, bit 5 (R24). -/
def statusDecrun (v : Byte) : Bool := v.getLsbD 5

/-- STATUS.EMIT, bit 6 (R24). -/
def statusEmit (v : Byte) : Bool := v.getLsbD 6

/-- STATUS.REC, bit 7 (R24). -/
def statusRec (v : Byte) : Bool := v.getLsbD 7

/-- `finish(code, sigcmp, decrun, rec)` (R200): STATUS is written whole, with EMIT from the verbosity as it stands, and
nothing else changes. -/
def finish (code : ResultCode) (sigcmp decrun record : Bool) (s : State) : State :=
  { s with status := statusByte code sigcmp decrun (emitPolicy code record s.verbose) record }

/-- ERR.LOCKED_WRITE, bit 0 (R26). -/
def errLockedWrite : Byte := 0x01#8

/-- ERR.BAD_CMD, bit 1 (R26). -/
def errBadCmd : Byte := 0x02#8

/-- ERR.BAD_ACCESS, bit 2 (R26). -/
def errBadAccess : Byte := 0x04#8

/-- Set one sticky bit of ERR (R26). -/
def setErr (bit : Byte) (s : State) : State := { s with err := s.err ||| bit }

/-- A host write of `d` to ERR (R26, R62): `ERR <- ERR & ~d & 0x07`. -/
def clearErr (d : Byte) (s : State) : State := { s with err := s.err &&& ~~~d &&& 0x07#8 }

end Sys2Proof.Machine
end

