-- ==== Sys2Proof/Machine/Operands.lean ====
section
/-! DEFINITION. What the commands and the host read: big-endian pairs (`00_scope.md` R10), the written-bits
(`20_memory.md` R70), the key and signature being complete (R145, R202), and the byte arrays read whole or in part. -/

namespace Sys2Proof.Machine

/-- `BE16(hi, lo) = (zext_16(hi) << 8) | zext_16(lo)` (R10). -/
def be16 (hi lo : Byte) : HalfWord := (hi.setWidth 16 <<< 8) ||| lo.setWidth 16

/-- Bits 15:8 of a 16-bit register, the byte at its lower address (R64). -/
def highByte (v : HalfWord) : Byte := v.extractLsb' 8 8

/-- Bits 7:0 of a 16-bit register, the byte at its higher address (R64). -/
def lowByte (v : HalfWord) : Byte := v.extractLsb' 0 8

/-- The first of the `count` indices from `start` on whose written-bit is 0. A command that reads those bytes in index
order stops there (R70; that they are read in index order is notes 3). -/
def firstUnwritten {n : Nat} (written : BitVec n) (start count : Nat) : Option Nat :=
  (List.range' start count).find? fun i => !written.getLsbD i

/-- Read `count` bytes of `array` from `start` on, giving `value`, or the model fault of the first one that holds no
value: R35, R36 and R38 state that fault for a read of SIG, FRAME and BLK (R70; R223 (f); D22; notes 2). -/
def readRange {α : Type} {n : Nat} (array : ByteArrayName) (written : BitVec n) (start count : Nat) (value : α) :
    Except Fault α :=
  match firstUnwritten written start count with
  | some i => .error (.unwrittenRead array i)
  | none => .ok value

/-- `KeyComplete()`: KEY_VALID = 0xFFFF (R145). -/
def keyComplete (s : State) : Bool := s.keyW == 0xFFFF#16

/-- SIG_VALID = 0x3F (R202). -/
def sigComplete (s : State) : Bool := s.sigW == 0x3F#6

/-- `BLK[0] ++ … ++ BLK[15]`, as DECRYPT, ENCRYPT and DECODE read it (R150, R151, R188). -/
def readBlk (s : State) : Except Fault Block := readRange .blk s.blkW 0 Config.blockLen s.blk

/-- FRAME[2..7], the candidate device signature (R113). -/
def candidateOf (f : FrameBytes) : Signature := #v[f[2], f[3], f[4], f[5], f[6], f[7]]

/-- FRAME[8..23], the candidate CipherBlock (R115). -/
def ciphertextOf (f : FrameBytes) : Block :=
  #v[f[8], f[9], f[10], f[11], f[12], f[13], f[14], f[15], f[16], f[17], f[18], f[19], f[20], f[21], f[22], f[23]]

/-- All six bytes of the candidate signature, read whatever they compare to (R113). -/
def readCandidate (s : State) : Except Fault Signature :=
  readRange .frame s.frameW Config.sigOff Config.sigLen (candidateOf s.frame)

/-- All six bytes of SIG (R113). -/
def readSignature (s : State) : Except Fault Signature := readRange .sig s.sigW 0 Config.sigLen s.sig

/-- All sixteen bytes of the candidate CipherBlock (R115). -/
def readCiphertext (s : State) : Except Fault Block :=
  readRange .frame s.frameW Config.ctOff Config.ctLen (ciphertextOf s.frame)

/-- SIG[i] for a host read (R61). -/
def readSigByte (i : Fin 6) (s : State) : Except Fault Byte := readRange .sig s.sigW i 1 s.sig[i]

/-- BLK[i] for a host read (R61). -/
def readBlkByte (i : Fin 16) (s : State) : Except Fault Byte := readRange .blk s.blkW i 1 s.blk[i]

/-- FRAME[i] for a host read (R61). -/
def readFrameByte (i : Fin 24) (s : State) : Except Fault Byte := readRange .frame s.frameW i 1 s.frame[i]

end Sys2Proof.Machine
end

