-- ==== Sys2Proof/Machine/Ops.lean ====
section
/-! DEFINITION. The named writes of state that the commands and the host transactions share. The block takes no
exceptions and returns from none (`60_exceptions.md` R226, R227): every command ends in `finish` (Flags), in CLEAR's
own writes or, for NOP, in nothing. -/

namespace Sys2Proof.Machine

/-- A written-bit vector with bit `i` set. -/
def markWritten {n : Nat} (written : BitVec n) (i : Nat) : BitVec n := written ||| (1#n <<< i)

/-- `SIG[i] <- d; SIG_W[i] <- 1` (R35, R62). -/
def storeSig (i : Fin 6) (d : Byte) (s : State) : State :=
  { s with sig := s.sig.set i d, sigW := markWritten s.sigW i }

/-- `KEY[i] <- d; KEY_W[i] <- 1` (R37, R62). -/
def storeKey (i : Fin 16) (d : Byte) (s : State) : State :=
  { s with key := s.key.set i d, keyW := markWritten s.keyW i }

/-- `BLK[i] <- d; BLK_W[i] <- 1` (R62). -/
def storeBlk (i : Fin 16) (d : Byte) (s : State) : State :=
  { s with blk := s.blk.set i d, blkW := markWritten s.blkW i }

/-- `FRAME[i] <- d; FRAME_W[i] <- 1` (R36, R62). -/
def storeFrame (i : Fin 24) (d : Byte) (s : State) : State :=
  { s with frame := s.frame.set i d, frameW := markWritten s.frameW i }

/-- A command's write of all of BLK; every BLK_W bit becomes 1 (R38, R40). -/
def setBlk (b : Block) (s : State) : State := { s with blk := b, blkW := BitVec.allOnes 16 }

/-- `FRAME_LEN[15:8] <- d` (R62). -/
def setFrameLenHigh (d : Byte) (s : State) : State := { s with frameLen := be16 d (lowByte s.frameLen) }

/-- `FRAME_LEN[7:0] <- d` (R62). -/
def setFrameLenLow (d : Byte) (s : State) : State := { s with frameLen := be16 (highByte s.frameLen) d }

/-- `CTRL.VERBOSE <- d[0]`; `d[7:1]` is ignored (R62). -/
def setVerbose (d : Byte) (s : State) : State := { s with verbose := d.getLsbD 0 }

/-- `CTRL.LOCK <- 1` (R202). -/
def setLocked (s : State) : State := { s with locked := true }

/-- `DEC_COUNT <- DEC_COUNT +_8 1` (R27). -/
def countDecryption (s : State) : State := { s with decCount := s.decCount + 1#8 }

/-- The result registers written together (R187). -/
def setRecord (t h : HalfWord) (b : Byte) (s : State) : State := { s with resTemp := t, resHum := h, resBatt := b }

/-- CLEAR's writes (R203). -/
def clearResult (s : State) : State :=
  { setBlk (Vector.replicate 16 0x00#8) (setRecord 0x0000#16 0x0000#16 0x00#8 s) with
    status := 0x00#8, frameLen := 0x0000#16 }

/-- The host's record of a read that returned `v` (R263). -/
def recordRead (v : Byte) (s : State) : State := { s with reads := s.reads ++ [v] }

/-- What is left of the host's program. -/
def withProgram (p : List HostEvent) (s : State) : State := { s with program := p }

/-- Reset (R250): every state element of the block takes its reset value; the host keeps its program and its record. -/
def resetBlock (s : State) : State := { State.reset with program := s.program, reads := s.reads }

end Sys2Proof.Machine
end

