-- ==== Sys2Proof/Machine/Cipher.lean ====
section
/-! DEFINITION. The cipher commands DECRYPT and ENCRYPT (`41_cipher.md` R144 to R151). -/

namespace Sys2Proof.Machine

/-- A completed inverse cipher of the block `y` with KEY: the plaintext in BLK, and one more decryption counted
(R27, R150). -/
def completeInvCipher (y : Block) (s : State) : State := countDecryption (setBlk (Aes.invCipher s.key y) s)

/-- DECRYPT (R150). -/
def execDecrypt (s : State) : StepOutcome :=
  if !keyComplete s then .next (finish .decryptionFailed false false false s)
  else
    match readBlk s with
    | .error f => .fault f
    | .ok y => .next (finish .ok false true false (completeInvCipher y s))

/-- ENCRYPT (R151). It counts nothing. -/
def execEncrypt (s : State) : StepOutcome :=
  if !keyComplete s then .next (finish .notConfigured false false false s)
  else
    match readBlk s with
    | .error f => .fault f
    | .ok x => .next (finish .ok false false false (setBlk (Aes.cipher s.key x) s))

end Sys2Proof.Machine
end

