-- ==== Sys2Proof/Machine/Extract.lean ====
section
/-! DEFINITION. The field extractor: `ExtractFn`, EXTRACT and DECODE (`42_field_extract.md` R180 to R188). -/

namespace Sys2Proof.Machine

/-- The three raw fields of a TelemetryRecord (R180). -/
structure TelemetryRecord where
  temperature : HalfWord
  humidity : HalfWord
  battery : Byte
deriving DecidableEq, Repr

/-- The fields of a plaintext at their fixed offsets, big-endian and unsigned (R181, R182, R183). -/
def recordOf (p : Block) : TelemetryRecord := ⟨be16 p[0] p[1], be16 p[2] p[3], p[4]⟩

/-- `ExtractFn` (R180): it reads exactly BLK[0..4]. The defensive length check of R186 compares two constants and
always passes, so MALFORMED_PLAINTEXT has no arm. -/
def extractFn (s : State) : Except Fault TelemetryRecord :=
  readRange .blk s.blkW 0 Config.fieldMin (recordOf s.blk)

/-- A record written to RES_TEMP, RES_HUM and RES_BATT (R187). -/
def storeRecord (r : TelemetryRecord) (s : State) : State := setRecord r.temperature r.humidity r.battery s

/-- The end of every command that decodes: extract, write the record, finish OK with REC = 1 (R187, R188, R201). -/
def extractAndFinish (sigcmp decrun : Bool) (s : State) : StepOutcome :=
  match extractFn s with
  | .error f => .fault f
  | .ok r => .next (finish .ok sigcmp decrun true (storeRecord r s))

/-- EXTRACT (R187). -/
def execExtract (s : State) : StepOutcome := extractAndFinish false false s

/-- DECODE (R188). -/
def execDecode (s : State) : StepOutcome :=
  if !keyComplete s then .next (finish .decryptionFailed false false false s)
  else
    match readBlk s with
    | .error f => .fault f
    | .ok y => extractAndFinish false true (completeInvCipher y s)

end Sys2Proof.Machine
end

