-- ==== Sys2Proof/Machine/Filter.lean ====
section
/-! DEFINITION. The Frame Filter: `FilterFn` and the FILTER command (`40_frame_filter.md` R110 to R119). -/

namespace Sys2Proof.Machine

/-- What `FilterFn` returns (R110): the triple `(result, sigcmp, ct)`, where `ct` is present only on acceptance. -/
inductive FilterVerdict where
  | accepted (ct : Block)
  | tooShort
  | signatureMismatch
  | badCiphertextLength
deriving DecidableEq, Repr

/-- The `result` of a verdict (R110). -/
def verdictCode : FilterVerdict → ResultCode
  | .accepted _ => .ok
  | .tooShort => .tooShort
  | .signatureMismatch => .signatureMismatch
  | .badCiphertextLength => .badCiphertextLength

/-- The `sigcmp` of a verdict: 0 only when the length check rejected, since no comparison ran (R110, R112). -/
def verdictSigcmp : FilterVerdict → Bool
  | .accepted _ => true
  | .tooShort => false
  | .signatureMismatch => true
  | .badCiphertextLength => true

/-- `FilterFn` (R110): length, then signature, then ciphertext length; the first step that rejects ends it. -/
def filterFn (s : State) : Except Fault FilterVerdict :=
  if s.frameLen.toNat < Config.minLen then .ok .tooShort
  else
    match readCandidate s with
    | .error f => .error f
    | .ok candidate =>
      match readSignature s with
      | .error f => .error f
      | .ok signature =>
        if candidate ≠ signature then .ok .signatureMismatch
        else if s.frameLen.toNat - Config.ctOff ≠ Config.ctLen then .ok .badCiphertextLength
        else
          match readCiphertext s with
          | .error f => .error f
          | .ok ct => .ok (.accepted ct)

/-- On acceptance the CipherBlock goes to BLK; on a rejection nothing does (R116). -/
def storeAccepted : FilterVerdict → State → State
  | .accepted ct, s => setBlk ct s
  | .tooShort, s => s
  | .signatureMismatch, s => s
  | .badCiphertextLength, s => s

/-- FILTER (R116). -/
def execFilter (s : State) : StepOutcome :=
  if !s.locked then .next (finish .notConfigured false false false s)
  else
    match filterFn s with
    | .error f => .fault f
    | .ok v => .next (finish (verdictCode v) (verdictSigcmp v) false false (storeAccepted v s))

end Sys2Proof.Machine
end

