-- ==== Sys2Proof/Machine/Control.lean ====
section
/-! DEFINITION. The pipeline and control commands PROCESS, LOCK, CLEAR, NOP and the reserved opcodes
(`43_pipeline_control.md` R200 to R207). -/

namespace Sys2Proof.Machine

/-- NOP (R204). -/
def execNop (s : State) : StepOutcome := .next s

/-- PROCESS (R201): filter, then decrypt, then decode. The ciphertext is not kept, and the key check cannot fail while
locked (R202). -/
def execProcess (s : State) : StepOutcome :=
  if !s.locked then .next (finish .notConfigured false false false s)
  else
    match filterFn s with
    | .error f => .fault f
    | .ok (.accepted ct) =>
      if !keyComplete s then .next (finish .decryptionFailed true false false s)
      else extractAndFinish true true (completeInvCipher ct s)
    | .ok v => .next (finish (verdictCode v) (verdictSigcmp v) false false s)

/-- LOCK (R202). -/
def execLock (s : State) : StepOutcome :=
  if s.locked then .next (finish .ok false false false s)
  else if sigComplete s && keyComplete s then .next (finish .ok false false false (setLocked s))
  else .next (finish .notConfigured false false false s)

/-- CLEAR (R203). -/
def execClear (s : State) : StepOutcome := .next (clearResult s)

/-- BAD_COMMAND, what every reserved opcode executes as (R205). -/
def badCommand (s : State) : StepOutcome := .next (finish .badCommand false false false (setErr errBadCmd s))

/-- The reserved opcode 0x09 (R205). -/
def execReserved09 (s : State) : StepOutcome := badCommand s

/-- The reserved opcodes 0x0A and 0x0B (R205). -/
def execReserved0A (_opc : Byte) (s : State) : StepOutcome := badCommand s

/-- The reserved opcodes 0x0C to 0x0F (R205). -/
def execReserved0C (_opc : Byte) (s : State) : StepOutcome := badCommand s

/-- The reserved opcodes 0x10 to 0x1F (R205). -/
def execReserved10 (_opc : Byte) (s : State) : StepOutcome := badCommand s

/-- The reserved opcodes 0x20 to 0x3F (R205). -/
def execReserved20 (_opc : Byte) (s : State) : StepOutcome := badCommand s

/-- The reserved opcodes 0x40 to 0x7F (R205). -/
def execReserved40 (_opc : Byte) (s : State) : StepOutcome := badCommand s

/-- The reserved opcodes 0x80 to 0xFF (R205). -/
def execReserved80 (_opc : Byte) (s : State) : StepOutcome := badCommand s

end Sys2Proof.Machine
end

