-- ==== Sys2Proof/Machine/RegisterMap.lean ====
section
/-! DEFINITION. The register map (`10_state.md` R23): which register byte each of the 256 host addresses reaches. -/

namespace Sys2Proof.Machine

/-- The register bytes of the map; a 16-bit register is two of them, its high byte first (R23, R64). -/
inductive Reg where
  | cmd | status | ctrl | err | decCount | frameLenH | frameLenL | sigValid | keyValidH | keyValidL
  | resTempH | resTempL | resHumH | resHumL | resBatt
  | sig (i : Fin 6) | key (i : Fin 16) | blk (i : Fin 16) | frame (i : Fin 24)
deriving DecidableEq, Repr

/-- The address of a register byte (R23). -/
def Reg.address : Reg → Byte
  | .cmd => 0x00#8
  | .status => 0x01#8
  | .ctrl => 0x02#8
  | .err => 0x03#8
  | .decCount => 0x04#8
  | .frameLenH => 0x06#8
  | .frameLenL => 0x07#8
  | .sigValid => 0x08#8
  | .keyValidH => 0x0A#8
  | .keyValidL => 0x0B#8
  | .resTempH => 0x10#8
  | .resTempL => 0x11#8
  | .resHumH => 0x12#8
  | .resHumL => 0x13#8
  | .resBatt => 0x14#8
  | .sig i => BitVec.ofNat 8 (0x20 + i)
  | .key i => BitVec.ofNat 8 (0x30 + i)
  | .blk i => BitVec.ofNat 8 (0x40 + i)
  | .frame i => BitVec.ofNat 8 (0x60 + i)

/-- The byte arrays' part of the map (R23). -/
def arrayRegAt (n : Nat) : Option Reg :=
  if h : 0x20 ≤ n ∧ n ≤ 0x25 then some (.sig ⟨n - 0x20, by omega⟩)
  else if h : 0x30 ≤ n ∧ n ≤ 0x3F then some (.key ⟨n - 0x30, by omega⟩)
  else if h : 0x40 ≤ n ∧ n ≤ 0x4F then some (.blk ⟨n - 0x40, by omega⟩)
  else if h : 0x60 ≤ n ∧ n ≤ 0x77 then some (.frame ⟨n - 0x60, by omega⟩)
  else none

/-- The register byte at an address, or none where the address is unmapped (R23, R68). -/
def regAt (a : Byte) : Option Reg :=
  match a.toNat with
  | 0x00 => some .cmd
  | 0x01 => some .status
  | 0x02 => some .ctrl
  | 0x03 => some .err
  | 0x04 => some .decCount
  | 0x06 => some .frameLenH
  | 0x07 => some .frameLenL
  | 0x08 => some .sigValid
  | 0x0A => some .keyValidH
  | 0x0B => some .keyValidL
  | 0x10 => some .resTempH
  | 0x11 => some .resTempL
  | 0x12 => some .resHumH
  | 0x13 => some .resHumL
  | 0x14 => some .resBatt
  | n => arrayRegAt n

end Sys2Proof.Machine
end

