-- ==== Sys2Proof/Machine/HostAccess.lean ====
section
/-! DEFINITION. The two host transactions (`20_memory.md` R60 to R73): HostRead (R61), HostWrite (R62), and `Execute`,
which a write to CMD runs (`30_encoding.md` R93). -/

namespace Sys2Proof.Machine

/-- CTRL as the host reads it (R61): LOCK in bit 1, VERBOSE in bit 0, the rest 0. -/
def ctrlByte (s : State) : Byte := (flagByte s.locked <<< 1) ||| flagByte s.verbose

/-- The value a register byte reads as (R61). CMD and KEY read as 0x00 whatever they hold. -/
def readReg (r : Reg) (s : State) : Except Fault Byte :=
  match r with
  | .cmd => .ok 0x00#8
  | .status => .ok s.status
  | .ctrl => .ok (ctrlByte s)
  | .err => .ok s.err
  | .decCount => .ok s.decCount
  | .frameLenH => .ok (highByte s.frameLen)
  | .frameLenL => .ok (lowByte s.frameLen)
  | .sigValid => .ok (s.sigW.setWidth 8)
  | .keyValidH => .ok (highByte s.keyW)
  | .keyValidL => .ok (lowByte s.keyW)
  | .resTempH => .ok (highByte s.resTemp)
  | .resTempL => .ok (lowByte s.resTemp)
  | .resHumH => .ok (highByte s.resHum)
  | .resHumL => .ok (lowByte s.resHum)
  | .resBatt => .ok s.resBatt
  | .sig i => readSigByte i s
  | .key _ => .ok 0x00#8
  | .blk i => readBlkByte i s
  | .frame i => readFrameByte i s

/-- `HostRead(a)` (R61): an unmapped address reads as 0x00 (R68). -/
def hostRead (a : Byte) (s : State) : Except Fault Byte :=
  match regAt a with
  | some r => readReg r s
  | none => .ok 0x00#8

/-- `Execute(d)` (R93): the opcode map; every opcode from 0x09 on is reserved (R94). -/
def execute (d : Byte) (s : State) : StepOutcome :=
  match d.toNat with
  | 0x00 => execNop s
  | 0x01 => execFilter s
  | 0x02 => execDecrypt s
  | 0x03 => execEncrypt s
  | 0x04 => execExtract s
  | 0x05 => execDecode s
  | 0x06 => execProcess s
  | 0x07 => execLock s
  | 0x08 => execClear s
  | _ => badCommand s

/-- A host write to a register byte other than CMD (R62). SIG and KEY are immutable once locked (R71); a read-only
register takes no write (R69). -/
def writeReg (r : Reg) (d : Byte) (s : State) : State :=
  match r with
  | .cmd => s
  | .status => setErr errBadAccess s
  | .ctrl => setVerbose d s
  | .err => clearErr d s
  | .decCount => setErr errBadAccess s
  | .frameLenH => setFrameLenHigh d s
  | .frameLenL => setFrameLenLow d s
  | .sigValid => setErr errBadAccess s
  | .keyValidH => setErr errBadAccess s
  | .keyValidL => setErr errBadAccess s
  | .resTempH => setErr errBadAccess s
  | .resTempL => setErr errBadAccess s
  | .resHumH => setErr errBadAccess s
  | .resHumL => setErr errBadAccess s
  | .resBatt => setErr errBadAccess s
  | .sig i => if s.locked then setErr errLockedWrite s else storeSig i d s
  | .key i => if s.locked then setErr errLockedWrite s else storeKey i d s
  | .blk i => storeBlk i d s
  | .frame i => storeFrame i d s

/-- `HostWrite(a, d)` (R62): CMD executes, a register byte is written, and an unmapped address sets BAD_ACCESS (R68). -/
def hostWrite (a d : Byte) (s : State) : StepOutcome :=
  match regAt a with
  | some .cmd => execute d s
  | some r => .next (writeReg r d s)
  | none => .next (setErr errBadAccess s)

/-- HTX_WR (R62, R91). -/
def execHtxWr (addr data : Byte) (s : State) : StepOutcome := hostWrite addr data s

/-- HTX_RD (R61, R91): the block's state does not change, and the host records the value (R263). -/
def execHtxRd (addr : Byte) (s : State) : StepOutcome :=
  match hostRead addr s with
  | .error f => .fault f
  | .ok v => .next (recordRead v s)

end Sys2Proof.Machine
end

