-- ==== Sys2Proof/Machine/Dispatch.lean ====
section
/-! DEFINITION. The dispatch: one arm per constructor of `Instr`, each one direct call of its meaning. -/

namespace Sys2Proof.Machine

def exec (i : Instr) (s : State) : Host.Outcome State Fault Refusal :=
  match i with
  | .nop => Sys2Proof.Machine.execNop s
  | .filter => Sys2Proof.Machine.execFilter s
  | .decrypt => Sys2Proof.Machine.execDecrypt s
  | .encrypt => Sys2Proof.Machine.execEncrypt s
  | .extract => Sys2Proof.Machine.execExtract s
  | .decode => Sys2Proof.Machine.execDecode s
  | .process => Sys2Proof.Machine.execProcess s
  | .lock => Sys2Proof.Machine.execLock s
  | .clear => Sys2Proof.Machine.execClear s
  | .reserved09 => Sys2Proof.Machine.execReserved09 s
  | .reserved0A opc => Sys2Proof.Machine.execReserved0A opc s
  | .reserved0C opc => Sys2Proof.Machine.execReserved0C opc s
  | .reserved10 opc => Sys2Proof.Machine.execReserved10 opc s
  | .reserved20 opc => Sys2Proof.Machine.execReserved20 opc s
  | .reserved40 opc => Sys2Proof.Machine.execReserved40 opc s
  | .reserved80 opc => Sys2Proof.Machine.execReserved80 opc s
  | .htxWr addr data => Sys2Proof.Machine.execHtxWr addr data s
  | .htxRd addr => Sys2Proof.Machine.execHtxRd addr s

end Sys2Proof.Machine
end

