-- ==== Sys2Proof/WellFormed.lean ====
section
/-! DEFINITION. Well-formed instructions: a reserved row's OPC lies in that row's range (`30_encoding.md` R94 and the
mask and match of `opcode_table.json`). Every other instruction is well-formed with any operands. -/

namespace Sys2Proof

/-- `v` agrees with an opcode-table row: its bits under `mask` are `value`. -/
def matchesRow (mask value v : Byte) : Bool := v &&& mask == value

/-- The OPC operand of a reserved row lies in that row's range; nothing else restricts an instruction. -/
def Instr.wellFormed : Instr → Bool
  | .nop => true
  | .filter => true
  | .decrypt => true
  | .encrypt => true
  | .extract => true
  | .decode => true
  | .process => true
  | .lock => true
  | .clear => true
  | .reserved09 => true
  | .reserved0A opc => matchesRow 0xFE#8 0x0A#8 opc
  | .reserved0C opc => matchesRow 0xFC#8 0x0C#8 opc
  | .reserved10 opc => matchesRow 0xF0#8 0x10#8 opc
  | .reserved20 opc => matchesRow 0xE0#8 0x20#8 opc
  | .reserved40 opc => matchesRow 0xC0#8 0x40#8 opc
  | .reserved80 opc => matchesRow 0x80#8 0x80#8 opc
  | .htxWr _ _ => true
  | .htxRd _ => true

end Sys2Proof
end

