-- ==== Sys2Proof/Decode.lean ====
section
/-! DEFINITION. Decoding and encoding (`30_encoding.md` R90 to R96). Decoding is total: a command byte always decodes
(R94: the reserved opcodes are commands too), and an HTX word decodes or is refused by name (R95). -/

namespace Sys2Proof

/-- Format CMD8 (R90, R93): all eight bits are OPC. The rows are tried in the table's order; they do not overlap, and
together they cover every byte. -/
def decodeCmd8 (d : Byte) : Instr :=
  if matchesRow 0xFF#8 0x00#8 d then .nop
  else if matchesRow 0xFF#8 0x01#8 d then .filter
  else if matchesRow 0xFF#8 0x02#8 d then .decrypt
  else if matchesRow 0xFF#8 0x03#8 d then .encrypt
  else if matchesRow 0xFF#8 0x04#8 d then .extract
  else if matchesRow 0xFF#8 0x05#8 d then .decode
  else if matchesRow 0xFF#8 0x06#8 d then .process
  else if matchesRow 0xFF#8 0x07#8 d then .lock
  else if matchesRow 0xFF#8 0x08#8 d then .clear
  else if matchesRow 0xFF#8 0x09#8 d then .reserved09
  else if matchesRow 0xFE#8 0x0A#8 d then .reserved0A d
  else if matchesRow 0xFC#8 0x0C#8 d then .reserved0C d
  else if matchesRow 0xF0#8 0x10#8 d then .reserved10 d
  else if matchesRow 0xE0#8 0x20#8 d then .reserved20 d
  else if matchesRow 0xC0#8 0x40#8 d then .reserved40 d
  else .reserved80 d

/-- The field RSV, bits 23:17, of an HTX word (R91). -/
def htxRsv (w : BitVec 24) : BitVec 7 := w.extractLsb' 17 7

/-- The field WR, bit 16 (R91). -/
def htxIsWrite (w : BitVec 24) : Bool := w.getLsbD 16

/-- The field ADDR, bits 15:8 (R91). -/
def htxAddr (w : BitVec 24) : Byte := w.extractLsb' 8 8

/-- The field DATA, bits 7:0 (R91). -/
def htxData (w : BitVec 24) : Byte := w.extractLsb' 0 8

/-- Format HTX on a 24-bit word (R91, R95). -/
def decodeHtx24 (w : BitVec 24) : Except DecodeError Instr :=
  if htxRsv w != 0#7 then .error .reservedBitsSet
  else if htxIsWrite w then .ok (.htxWr (htxAddr w) (htxData w))
  else if htxData w != 0#8 then .error .readWithData
  else .ok (.htxRd (htxAddr w))

/-- Format HTX on any number (R95): one of 2^24 or more is wider than 24 bits and is refused. -/
def decodeHtx (w : Nat) : Except DecodeError Instr :=
  if 2 ^ 24 ≤ w then .error .wordTooWide else decodeHtx24 (BitVec.ofNat 24 w)

/-- The instruction a raw item stands for, or the name under which it is refused. -/
def decode : RawItem → Except DecodeError Instr
  | .cmd8 d => .ok (decodeCmd8 d)
  | .htx w => decodeHtx w

/-- The HTX word with RSV = 0 and the given other fields (R91). -/
def htxWord (wr : BitVec 1) (addr data : Byte) : Nat := (0#7 ++ wr ++ addr ++ data : BitVec 24).toNat

/-- The raw item an instruction is written as (R90, R91, R93, R94). -/
def encode : Instr → RawItem
  | .nop => .cmd8 0x00#8
  | .filter => .cmd8 0x01#8
  | .decrypt => .cmd8 0x02#8
  | .encrypt => .cmd8 0x03#8
  | .extract => .cmd8 0x04#8
  | .decode => .cmd8 0x05#8
  | .process => .cmd8 0x06#8
  | .lock => .cmd8 0x07#8
  | .clear => .cmd8 0x08#8
  | .reserved09 => .cmd8 0x09#8
  | .reserved0A opc => .cmd8 opc
  | .reserved0C opc => .cmd8 opc
  | .reserved10 opc => .cmd8 opc
  | .reserved20 opc => .cmd8 opc
  | .reserved40 opc => .cmd8 opc
  | .reserved80 opc => .cmd8 opc
  | .htxWr addr data => .htx (htxWord 1#1 addr data)
  | .htxRd addr => .htx (htxWord 0#1 addr 0x00#8)

/-- The raw item that the opcode table's numbering of an instruction's bits stands for: an 8-bit item is a CMD8 byte,
and any other is an HTX word, read as one number with bit 0 its least significant bit. -/
def tableItem (nbits w : Nat) : RawItem :=
  if nbits = 8 then .cmd8 (BitVec.ofNat 8 w) else .htx w

/-- The instruction the decoder reads from an item of `nbits` bits whose bits are `w`; none where it refuses. -/
def decodeTableWord (nbits w : Nat) : Option Instr :=
  match decode (tableItem nbits w) with
  | .ok i => some i
  | .error _ => none

end Sys2Proof
end

