-- ==== Sys2Proof/Machine/Fetch.lean ====
section
/-! DEFINITION. How the host agent's next event is taken up. The block has no program counter and fetches nothing
(`10_state.md` R22); what stands for a fetch is the host issuing its next transaction (`00_scope.md` R13,
`20_memory.md` R73). A program with a word that encodes no transaction never starts (`30_encoding.md` R95,
`70_reset_and_hazards.md` R263). -/

namespace Sys2Proof.Machine

/-- The first event of a program that encodes no transaction, with the reason and its position counted from `pos`. -/
def firstIllegal : List HostEvent → Nat → Option (DecodeError × Nat)
  | [], _ => none
  | .reset :: rest, pos => firstIllegal rest (pos + 1)
  | .transaction item :: rest, pos =>
    match decode item with
    | .error e => some (e, pos)
    | .ok _ => firstIllegal rest (pos + 1)

/-- What the next step does: nothing (the host is idle, R235), the platform's reset (R250), or one instruction; or the
refusal of the whole program (R95). -/
inductive Next where
  | idle
  | reset (rest : List HostEvent)
  | run (i : Instr) (rest : List HostEvent)
  | illegal (why : DecodeError) (position : Nat)
deriving DecidableEq, Repr

/-- Take up the next event of a program, all of which must encode transactions. -/
def fetch (program : List HostEvent) : Next :=
  match firstIllegal program 0 with
  | some (e, pos) => .illegal e pos
  | none =>
    match program with
    | [] => .idle
    | .reset :: rest => .reset rest
    | .transaction item :: rest =>
      match decode item with
      | .error e => .illegal e 0
      | .ok i => .run i rest

end Sys2Proof.Machine
end

