-- ==== Sys2Proof/Machine/Step.lean ====
section
/-! DEFINITION. One step of the model: one host transaction (`00_scope.md` R12, `20_memory.md` R72), one reset (R250),
or, when the host has nothing to do, no change (R234, R235). -/

namespace Sys2Proof.Machine

/-- One step: take up the host's next event and perform it whole. -/
def step (s : State) : Host.Outcome State Fault Refusal :=
  match fetch s.program with
  | .idle => .next s
  | .reset rest => .next (resetBlock (withProgram rest s))
  | .run i rest => exec i (withProgram rest s)
  | .illegal why position => .refused (.illegalWord why position)

/-- The state with the host's program replaced by the one item of `nbits` bits whose bits are `w`, so that the next step
performs exactly it. -/
def State.withFetchWord (s : State) (nbits w : Nat) : State := withProgram [.transaction (tableItem nbits w)] s

end Sys2Proof.Machine
end

