-- ==== Sys2Proof/Machine/Output.lean ====
section
/-! DEFINITION. What the result registers stand for and how a reader renders them (`42_field_extract.md` R184, R185),
and which outcome the output collaborator is due (R189; `70_reset_and_hazards.md` R261 (b), (f)). These are functions of
the state; the block itself only holds the integers. The line's labels and separators are in no source (N9, U22). -/

namespace Sys2Proof.Machine

/-- The exact value of a raw number of hundredths (R184). -/
def hundredths (v : HalfWord) : Rat := (v.toNat : Rat) / 100

/-- The temperature RES_TEMP stands for, in degrees Celsius (R184). -/
def temperatureCelsius (s : State) : Rat := hundredths s.resTemp

/-- The humidity RES_HUM stands for, in percent (R184). -/
def humidityPercent (s : State) : Rat := hundredths s.resHum

/-- The battery level RES_BATT stands for, in percent, scale 1, not clamped (R183, R184). -/
def batteryPercent (s : State) : Nat := s.resBatt.toNat

/-- `dec(n)`: the decimal numeral of `n` without leading zeros (R185). -/
def decimal (n : Nat) : String := String.ofList (Nat.toDigits 10 n)

/-- The two-decimal rendering of a raw value in hundredths (R185). -/
def renderHundredths (v : HalfWord) : String :=
  decimal (v.toNat / 100) ++ "." ++ decimal (v.toNat % 100 / 10) ++ decimal (v.toNat % 10)

/-- The rendering of the battery level (R185). -/
def renderBattery (b : Byte) : String := decimal b.toNat

/-- What the output collaborator is due after a command: a record's three rendered numbers, or a diagnostic naming the
result code (R189). -/
inductive OutputDue where
  | record (temperature humidity battery : String)
  | diagnostic (result : BitVec 4)
deriving DecidableEq, Repr

/-- The outcome with EMIT = 1 is due and one with EMIT = 0 is withheld (R189, R261 (f)); REC tells a record from a
diagnostic (R261 (b)). -/
def outputDue (s : State) : Option OutputDue :=
  if statusEmit s.status then
    if statusRec s.status then
      some (.record (renderHundredths s.resTemp) (renderHundredths s.resHum) (renderBattery s.resBatt))
    else some (.diagnostic (statusResult s.status))
  else none

end Sys2Proof.Machine
end

