-- ==== Sys2Proof/Machine/Assembler.lean ====
section
/-! DEFINITION. The assembly language of host programs (`30_encoding.md` R97 to R99): from text to HTX words. A malformed
statement is refused by name and line. The points of the text form that the rules leave to the listings of
`95_test_vectors.md` Part 8 are in notes 8. -/

namespace Sys2Proof.Machine.Asm

/-- Why the assembler refuses a statement (R97, R99). -/
inductive AsmError where
  /-- The statement is none of the language's. -/
  | unknownStatement
  /-- A register name is not in the list of R97. -/
  | unknownName
  /-- A number, address, datum or length is out of its range. -/
  | outOfRange
  /-- A token that must be a number, or a string of hex-digit pairs, is not one. -/
  | badNumber
  /-- The number of bytes given is not the one the statement takes. -/
  | wrongCount
deriving DecidableEq, Repr

/-- The statements (R97, R98, R99), their operands already read. -/
inductive Statement where
  | wr (addr data : Nat)
  | rd (addr : Nat)
  | command (opc : Byte)
  | ldsig (bytes : List Byte)
  | ldkey (bytes : List Byte)
  | ldblk (bytes : List Byte)
  | ldframe (len : Nat) (bytes : List Byte)
  | setverbose (v : Nat)
  | clrerr
  | rdrec
deriving DecidableEq, Repr

/-- The word of `wr ADDR, DATA`, `0x01AADD` (R97). -/
def writeWord (addr data : Byte) : Nat := htxWord 1#1 addr data

/-- The word of `rd ADDR`, `0x00AA00` (R97). -/
def readWord (addr : Byte) : Nat := htxWord 0#1 addr 0x00#8

/-- The words that write bytes to consecutive addresses in index order (R99). -/
def writeWords : Nat → List Byte → List Nat
  | _, [] => []
  | addr, b :: bs => writeWord (BitVec.ofNat 8 addr) b :: writeWords (addr + 1) bs

/-- Bytes loaded from an address on, exactly `count` of them (R99). -/
def loadBytes (addr count : Nat) (bytes : List Byte) : Except AsmError (List Nat) :=
  if bytes.length = count then .ok (writeWords addr bytes) else .error .wrongCount

/-- The HTX words of a statement (R97 to R99). -/
def expand : Statement → Except AsmError (List Nat)
  | .wr addr data =>
    if addr < 256 ∧ data < 256 then .ok [writeWord (BitVec.ofNat 8 addr) (BitVec.ofNat 8 data)]
    else .error .outOfRange
  | .rd addr => if addr < 256 then .ok [readWord (BitVec.ofNat 8 addr)] else .error .outOfRange
  | .command opc => .ok [writeWord 0x00#8 opc]
  | .ldsig bytes => loadBytes 0x20 6 bytes
  | .ldkey bytes => loadBytes 0x30 16 bytes
  | .ldblk bytes => loadBytes 0x40 16 bytes
  | .ldframe len bytes =>
    if len < 65536 then
      match loadBytes 0x60 (min len Config.frameCap) bytes with
      | .ok ws =>
        .ok (writeWord 0x06#8 (BitVec.ofNat 8 (len / 256)) :: writeWord 0x07#8 (BitVec.ofNat 8 (len % 256)) :: ws)
      | .error e => .error e
    else .error .outOfRange
  | .setverbose v => if v < 2 then .ok [writeWord 0x02#8 (BitVec.ofNat 8 v)] else .error .outOfRange
  | .clrerr => .ok [writeWord 0x03#8 0x07#8]
  | .rdrec => .ok [readWord 0x10#8, readWord 0x11#8, readWord 0x12#8, readWord 0x13#8, readWord 0x14#8]

/-- The register names of R97 that carry no index. -/
def plainNames : List (String × Nat) :=
  [("CMD", 0x00), ("STATUS", 0x01), ("CTRL", 0x02), ("ERR", 0x03), ("DEC_COUNT", 0x04)] ++
  [("FRAME_LEN_H", 0x06), ("FRAME_LEN_L", 0x07), ("SIG_VALID", 0x08)] ++
  [("KEY_VALID_H", 0x0A), ("KEY_VALID_L", 0x0B), ("RES_TEMP_H", 0x10), ("RES_TEMP_L", 0x11)] ++
  [("RES_HUM_H", 0x12), ("RES_HUM_L", 0x13), ("RES_BATT", 0x14)]

/-- `SIGi`, `KEYi`, `BLKi` or `FRAMEi` for `i` below `count` (R97). -/
def indexedNames (stem : String) (base count : Nat) : List (String × Nat) :=
  (List.range count).map fun i => (stem ++ decimal i, base + i)

/-- Every register name of R97 with its address. -/
def registerNames : List (String × Nat) :=
  plainNames ++ indexedNames "SIG" 0x20 6 ++ indexedNames "KEY" 0x30 16 ++ indexedNames "BLK" 0x40 16
    ++ indexedNames "FRAME" 0x60 24

/-- The command mnemonics (R98) and their opcodes. -/
def commandNames : List (String × Byte) :=
  [("nop", 0x00#8), ("filter", 0x01#8), ("decrypt", 0x02#8), ("encrypt", 0x03#8), ("extract", 0x04#8)] ++
  [("decode", 0x05#8), ("process", 0x06#8), ("lock", 0x07#8), ("clear", 0x08#8)]

/-- The value of a digit in a base up to 16. -/
def digitValue (base : Nat) (c : Char) : Option Nat :=
  let n := c.toNat
  let v := if 48 ≤ n ∧ n ≤ 57 then n - 48 else if 65 ≤ n ∧ n ≤ 70 then n - 55 else if 97 ≤ n ∧ n ≤ 102 then n - 87 else 16
  if v < base then some v else none

/-- A nonempty string of digits read in a base, most significant first. -/
def digitsValue (base : Nat) (cs : List Char) : Option Nat :=
  match cs with
  | [] => none
  | _ => cs.foldl (fun acc c => match acc, digitValue base c with
      | some n, some d => some (base * n + d)
      | _, _ => none) (some 0)

/-- A number: `0x` and hex digits, or decimal digits (R97). -/
def readNumber (token : String) : Except AsmError Nat :=
  match token.toList with
  | '0' :: 'x' :: cs => (digitsValue 16 cs).elim (.error .badNumber) .ok
  | cs => (digitsValue 10 cs).elim (.error .badNumber) .ok

/-- An ADDR operand: a register name or a number; what begins with a digit is a number (R97). -/
def readAddress (token : String) : Except AsmError Nat :=
  match registerNames.lookup token with
  | some a => .ok a
  | none =>
    match token.toList with
    | c :: _ => if (digitValue 10 c).isSome then readNumber token else .error .unknownName
    | [] => .error .unknownName

/-- A byte string as R9 writes it: two hex digits a byte, first byte first. -/
def readHexPairs : List Char → Except AsmError (List Byte)
  | [] => .ok []
  | [_] => .error .badNumber
  | h :: l :: cs =>
    match digitValue 16 h, digitValue 16 l, readHexPairs cs with
    | some a, some b, .ok bs => .ok (BitVec.ofNat 8 (16 * a + b) :: bs)
    | _, _, _ => .error .badNumber

/-- The byte operands of a load: tokens of hex-digit pairs, joined (R99). -/
def readBytes : List String → Except AsmError (List Byte)
  | [] => .ok []
  | t :: ts =>
    match readHexPairs t.toList, readBytes ts with
    | .ok bs, .ok cs => .ok (bs ++ cs)
    | .error e, _ => .error e
    | _, .error e => .error e

/-- The characters of one line as tokens: blanks separate, and a comma and a colon are tokens of their own. `word` is the
token being read, last character first. -/
def tokens : List Char → List Char → List String
  | [], word => if word.isEmpty then [] else [String.ofList word.reverse]
  | c :: cs, word =>
    let before := if word.isEmpty then [] else [String.ofList word.reverse]
    if c = ' ' ∨ c = '\t' then before ++ tokens cs []
    else if c = ',' ∨ c = ':' then before ++ [String.singleton c] ++ tokens cs []
    else tokens cs (c :: word)

/-- One statement from its tokens; an empty line holds none (R97 to R99). -/
def parseTokens : List String → Except AsmError (Option Statement)
  | [] => .ok none
  | ["wr", a, ",", d] =>
    match readAddress a, readNumber d with
    | .ok addr, .ok data => .ok (some (.wr addr data))
    | .error e, _ => .error e
    | _, .error e => .error e
  | ["rd", a] => (readAddress a).map fun addr => some (.rd addr)
  | "ldsig" :: ts => (readBytes ts).map fun bs => some (.ldsig bs)
  | "ldkey" :: ts => (readBytes ts).map fun bs => some (.ldkey bs)
  | "ldblk" :: ts => (readBytes ts).map fun bs => some (.ldblk bs)
  | "ldframe" :: l :: ":" :: ts =>
    match readNumber l, readBytes ts with
    | .ok len, .ok bs => .ok (some (.ldframe len bs))
    | .error e, _ => .error e
    | _, .error e => .error e
  | ["setverbose", v] => (readNumber v).map fun n => some (.setverbose n)
  | ["clrerr"] => .ok (some .clrerr)
  | ["rdrec"] => .ok (some .rdrec)
  | [name] =>
    match commandNames.lookup name with
    | some opc => .ok (some (.command opc))
    | none => .error .unknownStatement
  | _ => .error .unknownStatement

/-- The words of one line; `;` starts a comment (R97). -/
def assembleLine (line : List Char) : Except AsmError (List Nat) :=
  match parseTokens (tokens (line.takeWhile (· ≠ ';')) []) with
  | .ok none => .ok []
  | .ok (some st) => expand st
  | .error e => .error e

/-- A text cut at its line ends. -/
def splitLines : List Char → List (List Char)
  | [] => [[]]
  | c :: cs =>
    if c = '\n' then [] :: splitLines cs
    else
      match splitLines cs with
      | l :: ls => (c :: l) :: ls
      | [] => [[c]]

/-- The words of the lines from number `n` on, or the first refusal with its line number. -/
def assembleLines : Nat → List (List Char) → Except (AsmError × Nat) (List Nat)
  | _, [] => .ok []
  | n, l :: ls =>
    match assembleLine l with
    | .error e => .error (e, n)
    | .ok ws => (assembleLines (n + 1) ls).map (ws ++ ·)

/-- The HTX words of a program text, one statement a line, or the first refusal with its line, counted from 1 (R97). -/
def assemble (text : String) : Except (AsmError × Nat) (List Nat) := assembleLines 1 (splitLines text.toList)

/-- A list of HTX words as the host's program (R91). -/
def programOf (words : List Nat) : List HostEvent := words.map fun w => .transaction (.htx w)

end Sys2Proof.Machine.Asm
end

