-- ==== Sys2Proof/Safety.lean ====
section
/-! DEFINITION. The terms in which claims about THERMY-CORE are made: the invariant of the reachable states, when bytes
hold a value, what a host transaction does as a whole step, the document's own filter on a whole byte sequence, when two
states look alike, and what a run yields (`70_reset_and_hazards.md` R263). -/

namespace Sys2Proof.Machine

/-- The STATUS values the commands and reset leave (`95_test_vectors.md`, the table of STATUS values; R24, R39). -/
def legalStatuses : List Byte :=
  [0x00#8, 0x01#8, 0x02#8, 0x42#8, 0x11#8, 0x13#8, 0x53#8, 0x14#8] ++
  [0x54#8, 0x21#8, 0x45#8, 0x47#8, 0x48#8, 0xC1#8, 0xE1#8, 0xF1#8]

/-- The invariant of every state a run reaches: STATUS is one of its legal values (R24, R39), the reserved bits of ERR
are 0 (R26), and a locked block has its whole signature and its whole key (R202). -/
abbrev LegalState (s : State) : Prop :=
  s.status ∈ legalStatuses ∧ s.err &&& 0xF8#8 = 0x00#8 ∧
    (s.locked = true → s.sigW = 0x3F#6 ∧ s.keyW = 0xFFFF#16)

/-- Every one of the `count` bytes from `start` on has been written (R40). -/
def AllWritten {n : Nat} (written : BitVec n) (start count : Nat) : Prop :=
  ∀ j, start ≤ j → j < start + count → written.getLsbD j = true

/-- `k` is the first of the `count` bytes from `start` on that has not been written (R70). -/
def FirstHole {n : Nat} (written : BitVec n) (start count k : Nat) : Prop :=
  start ≤ k ∧ k < start + count ∧ written.getLsbD k = false ∧ ∀ j, start ≤ j → j < k → written.getLsbD j = true

/-- FRAME[2..7] equals SIG[0..5], byte for byte (R113). -/
def SignatureMatches (s : State) : Prop := ∀ i : Fin 6, s.frame[2 + i.val] = s.sig[i]

/-- HTX_RD of `a` completes, returning `v`: the host records `v` and nothing else changes (R61, R67). -/
def ReadReturns (s : State) (a v : Byte) : Prop := exec (.htxRd a) s = .next { s with reads := s.reads ++ [v] }

/-- HTX_WR of `d` to `a` completes in the state `t` (R62). -/
def WriteGives (s : State) (a d : Byte) (t : State) : Prop := exec (.htxWr a d) s = .next t

/-- The command an instruction runs: itself, or the one whose opcode a host write puts in CMD (R28, R93). -/
def commandRun : Instr → Option Instr
  | .nop => some .nop
  | .filter => some .filter
  | .decrypt => some .decrypt
  | .encrypt => some .encrypt
  | .extract => some .extract
  | .decode => some .decode
  | .process => some .process
  | .lock => some .lock
  | .clear => some .clear
  | .reserved09 => some .reserved09
  | .reserved0A opc => some (.reserved0A opc)
  | .reserved0C opc => some (.reserved0C opc)
  | .reserved10 opc => some (.reserved10 opc)
  | .reserved20 opc => some (.reserved20 opc)
  | .reserved40 opc => some (.reserved40 opc)
  | .reserved80 opc => some (.reserved80 opc)
  | .htxWr addr data => if addr = 0x00#8 then some (decodeCmd8 data) else none
  | .htxRd _ => none

/-- The instruction is one of the reserved opcodes (R94, R205). -/
def isReserved : Instr → Bool
  | .reserved09 => true
  | .reserved0A _ => true
  | .reserved0C _ => true
  | .reserved10 _ => true
  | .reserved20 _ => true
  | .reserved40 _ => true
  | .reserved80 _ => true
  | .nop | .filter | .decrypt | .encrypt | .extract | .decode | .process | .lock | .clear => false
  | .htxWr _ _ => false
  | .htxRd _ => false

/-- The document's filter on a whole RawAdvertisement, of any length (R110; doc §4.1): the length check, the bytes
[2, 8) against the signature, then all bytes from offset 8 on, which must be exactly 16. -/
def documentFilter (raw : List Byte) (signature : Signature) : FilterVerdict :=
  if raw.length < 22 then .tooShort
  else if (raw.drop 2).take 6 ≠ signature.toList then .signatureMismatch
  else if h : (raw.drop 8).length = 16 then .accepted ⟨(raw.drop 8).toArray, by simpa using h⟩
  else .badCiphertextLength

/-- The host has given the block the RawAdvertisement `raw` as R77 says: its length in FRAME_LEN, and its first
min(length, 24) bytes in FRAME. -/
def HoldsFrame (s : State) (raw : List Byte) : Prop :=
  s.frameLen.toNat = raw.length ∧
    ∀ i : Fin 24, i.val < raw.length → s.frameW.getLsbD i = true ∧ raw[i.val]? = some s.frame[i]

/-- Two states that differ at most in what is stored in bytes that hold no value (R70, U1, U2). -/
def AgreeOnWritten (s t : State) : Prop :=
  t = { s with sig := t.sig, key := t.key, blk := t.blk, frame := t.frame } ∧
    (∀ i : Fin 6, s.sigW.getLsbD i = true → s.sig[i] = t.sig[i]) ∧
    (∀ i : Fin 16, s.keyW.getLsbD i = true → s.key[i] = t.key[i]) ∧
    (∀ i : Fin 16, s.blkW.getLsbD i = true → s.blk[i] = t.blk[i]) ∧
    (∀ i : Fin 24, s.frameW.getLsbD i = true → s.frame[i] = t.frame[i])

/-- Two states with one configuration: the signature, the key, the verbosity and the lock (R206). -/
def SameConfiguration (s t : State) : Prop :=
  t.sig = s.sig ∧ t.sigW = s.sigW ∧ t.key = s.key ∧ t.keyW = s.keyW ∧ t.verbose = s.verbose ∧ t.locked = s.locked

/-- A command that took `s` to `t` and `s'` to `u` wrote the same both times (R206): the same STATUS and the same advance
of DEC_COUNT, 1 or 0; with a record the same BLK and result registers, and without one neither run wrote any. -/
def SameResults (s t s' u : State) : Prop :=
  u.status = t.status ∧ u.decCount - s'.decCount = t.decCount - s.decCount ∧ t.decCount - s.decCount ∈ [0#8, 1#8] ∧
  (statusRec t.status = true →
    u.blk = t.blk ∧ u.blkW = t.blkW ∧ u.resTemp = t.resTemp ∧ u.resHum = t.resHum ∧ u.resBatt = t.resBatt) ∧
  (statusRec t.status = false →
    t.blk = s.blk ∧ t.blkW = s.blkW ∧ t.resTemp = s.resTemp ∧ t.resHum = s.resHum ∧ t.resBatt = s.resBatt ∧
    u.blk = s'.blk ∧ u.blkW = s'.blkW ∧ u.resTemp = s'.resTemp ∧ u.resHum = s'.resHum ∧ u.resBatt = s'.resBatt)

/-- Two outcomes no host can tell apart: next states that agree on what is written, or the same fault or refusal. -/
def OutcomesAgree : StepOutcome → StepOutcome → Prop
  | .next s, .next t => AgreeOnWritten s t
  | .fault f, .fault g => f = g
  | .refused f, .refused g => f = g
  | _, _ => False

/-- The event encodes something the block can do: a reset, or an item that decodes (R95). -/
def EncodesEvent : HostEvent → Prop
  | .reset => True
  | .transaction item => ∃ i, decode item = .ok i

/-- An HTX word that encodes no transaction, read off its fields as numbers (R91, R95). -/
def BadWord (w : Nat) : Prop :=
  2 ^ 24 ≤ w ∨ w / 2 ^ 17 ≠ 0 ∨ (w / 2 ^ 16 % 2 = 0 ∧ w % 2 ^ 8 ≠ 0)

/-- A run of the host's whole program (R263). -/
def runToEnd (s : State) : StepOutcome := Host.Core.run Sys2Proof.core s.program.length s

/-- What a run yields (R263): the state after the program's last event, with the values of its reads in order; a run
that faults or is refused has no result. -/
def runResult (s : State) : Option (State × List Byte) :=
  match runToEnd s with
  | .next t => some (t, t.reads)
  | .fault _ => none
  | .refused _ => none

/-- A safe run is one that has a result (R263). -/
def SafeRun (s : State) : Prop := (runResult s).isSome = true

/-- How many host reads a program holds. -/
def readCount : List HostEvent → Nat
  | [] => 0
  | .reset :: rest => readCount rest
  | .transaction item :: rest =>
    match decode item with
    | .ok (.htxRd _) => readCount rest + 1
    | _ => readCount rest

end Sys2Proof.Machine
end

