-- ==== Sys2Proof/Certificates/Slice0/Obligations.lean ====
section
/-! DEFINITION. The statements about THERMY-CORE that are to be proved. Every equation `exec i s = .next { s with … }`
names each field that changes, so it is also the frame of its instruction: every field it does not name is unchanged. -/

open Sys2Proof Sys2Proof.Machine

/-! ## Encoding and decoding -/

/-- Decoding the item a well-formed instruction is written as gives that instruction back (R90 to R94). -/
def Obligations.DecodeEncodeRoundTrip : Prop :=
  ∀ i : Instr, i.wellFormed = true → decode (encode i) = .ok i

/-- An item that decodes gives a well-formed instruction, and that instruction is written as that very item: no two
items decode to one instruction. -/
def Obligations.EncodeDecodeRoundTrip : Prop :=
  ∀ (item : RawItem) (i : Instr), decode item = .ok i → i.wellFormed = true ∧ encode i = item

/-- A few items written out from the spec's encodings decode to the instructions they stand for. -/
def Obligations.SampleItemsDecode : Prop :=
  decode (.cmd8 0x06#8) = .ok .process ∧ decode (.cmd8 0x08#8) = .ok .clear ∧
  decode (.cmd8 0x0B#8) = .ok (.reserved0A 0x0B#8) ∧ decode (.cmd8 0xFF#8) = .ok (.reserved80 0xFF#8) ∧
  decode (.htx 0x010006) = .ok (.htxWr 0x00#8 0x06#8) ∧ decode (.htx 0x0160FF) = .ok (.htxWr 0x60#8 0xFF#8) ∧
  decode (.htx 0x000100) = .ok (.htxRd 0x01#8)

/-- R91: `0x01AADD` is a host write of DD to AA and `0x00AA00` a host read of AA. -/
def Obligations.HtxFieldsDecode : Prop :=
  ∀ addr data : Byte,
    decode (.htx (0x010000 + 256 * addr.toNat + data.toNat)) = .ok (.htxWr addr data) ∧
    decode (.htx (256 * addr.toNat)) = .ok (.htxRd addr)

/-- R95 and R263: a word with RSV ≠ 0, a read with DATA ≠ 0 and a word wider than 24 bits encode no transaction: the
program that holds one is refused by name and position, and nothing of it is performed, not even the legal events before
the word. Every other word encodes one. That the refusal is the next step's, whatever events come before the word, and
that the position counts from 0 in what is left of the program are the model's (notes 11). -/
def Obligations.IllegalWordRefusesProgram : Prop :=
  (∀ (s : State) (before after : List HostEvent) (w : Nat),
    s.program = before ++ .transaction (.htx w) :: after → (∀ e ∈ before, EncodesEvent e) → BadWord w →
    ∃ why, decode (.htx w) = .error why ∧ step s = .refused (.illegalWord why before.length)) ∧
  ∀ w : Nat, ¬ BadWord w → EncodesEvent (.transaction (.htx w))

/-- R94: the opcodes from 0x09 on, and no others, are reserved, and each executes as BAD_COMMAND. -/
def Obligations.ReservedOpcodesAreBadCommands : Prop :=
  ∀ (d : Byte) (s : State),
    (isReserved (decodeCmd8 d) = true ↔ 9 ≤ d.toNat) ∧
    (9 ≤ d.toNat → exec (decodeCmd8 d) s = .next { s with status := 0x48#8, err := s.err ||| 0x02#8 })

/-- R93: a host write of an opcode to CMD is the command of the opcode map. -/
def Obligations.CommandWritesFollowOpcodeMap : Prop :=
  ∀ s : State,
    exec (.htxWr 0x00#8 0x00#8) s = exec .nop s ∧ exec (.htxWr 0x00#8 0x01#8) s = exec .filter s ∧
    exec (.htxWr 0x00#8 0x02#8) s = exec .decrypt s ∧ exec (.htxWr 0x00#8 0x03#8) s = exec .encrypt s ∧
    exec (.htxWr 0x00#8 0x04#8) s = exec .extract s ∧ exec (.htxWr 0x00#8 0x05#8) s = exec .decode s ∧
    exec (.htxWr 0x00#8 0x06#8) s = exec .process s ∧ exec (.htxWr 0x00#8 0x07#8) s = exec .lock s ∧
    exec (.htxWr 0x00#8 0x08#8) s = exec .clear s ∧
    ∀ d : Byte, 9 ≤ d.toNat →
      exec (.htxWr 0x00#8 d) s = .next { s with status := 0x48#8, err := s.err ||| 0x02#8 }

/-- R28: a host write of `d` to CMD executes the command whose opcode is `d` in the same step, and CMD reads as 0x00. -/
def Obligations.CmdRegisterExecutes : Prop :=
  ∀ (d : Byte) (s : State),
    exec (.htxWr 0x00#8 d) s = exec (decodeCmd8 d) s ∧ ReadReturns s 0x00#8 0x00#8

/-! ## The step and reset -/

/-- When the host's next event decodes to an instruction, and the rest of its program is legal, a step is that
instruction on the state with the event taken off the program. That the host's program stands in State is the model's
choice (notes 4). -/
def Obligations.StepRunsDecodedInstruction : Prop :=
  ∀ (s : State) (item : RawItem) (rest : List HostEvent) (i : Instr),
    s.program = .transaction item :: rest → decode item = .ok i → (∀ e ∈ rest, EncodesEvent e) →
    step s = exec i { s with program := rest }

/-- An instruction placed by `withFetchWord` is the one the next step runs, with nothing left of the program after it
(the placing is the model's choice, notes 4). -/
def Obligations.PlacedWordRunsNext : Prop :=
  ∀ (s : State) (nbits w : Nat) (i : Instr),
    decodeTableWord nbits w = some i → step (s.withFetchWord nbits w) = exec i { s with program := [] }

/-- A reset between two transactions is one step that gives every element of the block its reset value; what the host
has still to do and what it has read stay the host's (the model's choice, notes 4), and the bytes that hold no value hold
the zeros of notes 1. -/
def Obligations.PlatformResetStep : Prop :=
  ∀ (s : State) (rest : List HostEvent),
    s.program = .reset :: rest → (∀ e ∈ rest, EncodesEvent e) →
    step s = .next { State.reset with program := rest, reads := s.reads }

/-- When the host issues nothing the block keeps its state (R234, R235; that the step then answers the same state is the
model's choice, notes 4). -/
def Obligations.IdleStepKeepsState : Prop :=
  ∀ s : State, s.program = [] → step s = .next s

/-- R251: what each register reads as after reset; SIG, BLK and FRAME hold no value, and KEY reads as 0x00. -/
def Obligations.ResetValues : Prop :=
  (∀ a ∈ [0x00#8, 0x01#8, 0x02#8, 0x03#8, 0x04#8, 0x06#8, 0x07#8, 0x08#8, 0x0A#8, 0x0B#8, 0x10#8, 0x11#8, 0x12#8,
      0x13#8, 0x14#8], ReadReturns State.reset a 0x00#8) ∧
  (∀ i : Fin 6, exec (.htxRd (BitVec.ofNat 8 (0x20 + i))) State.reset = .fault (.unwrittenRead .sig i)) ∧
  (∀ i : Fin 16, ReadReturns State.reset (BitVec.ofNat 8 (0x30 + i)) 0x00#8) ∧
  (∀ i : Fin 16, exec (.htxRd (BitVec.ofNat 8 (0x40 + i))) State.reset = .fault (.unwrittenRead .blk i)) ∧
  (∀ i : Fin 24, exec (.htxRd (BitVec.ofNat 8 (0x60 + i))) State.reset = .fault (.unwrittenRead .frame i)) ∧
  keyComplete State.reset = false ∧ State.reset.locked = false

/-! ## The commands -/

/-- R204: NOP changes nothing, in every state, and its opcode is the value CMD reads as. -/
def Obligations.NopChangesNothing : Prop :=
  ∀ s : State, exec .nop s = .next s ∧ encode .nop = .cmd8 0x00#8 ∧ ReadReturns s 0x00#8 0x00#8

/-- R203: what CLEAR writes; after it BLK reads as zeros, and FILTER or PROCESS of a locked block is TOO_SHORT. -/
def Obligations.ClearDiscardsResult : Prop :=
  ∀ s : State, ∃ t : State,
    exec .clear s = .next t ∧
    t = { s with status := 0x00#8, resTemp := 0x0000#16, resHum := 0x0000#16, resBatt := 0x00#8,
                 blk := Vector.replicate 16 0x00#8, blkW := BitVec.allOnes 16, frameLen := 0x0000#16 } ∧
    (∀ i : Fin 16, ReadReturns t (BitVec.ofNat 8 (0x40 + i)) 0x00#8) ∧
    (s.locked = true →
      exec .filter t = .next { t with status := if s.verbose then 0x42#8 else 0x02#8 } ∧
      exec .process t = .next { t with status := if s.verbose then 0x42#8 else 0x02#8 })

/-- R202: LOCK on a locked block changes only STATUS; on a complete configuration it locks; otherwise it does not. -/
def Obligations.LockChecksConfiguration : Prop :=
  ∀ s : State,
    (s.locked = true → exec .lock s = .next { s with status := 0x01#8 }) ∧
    (s.locked = false → (∀ i : Fin 6, s.sigW.getLsbD i = true) → (∀ i : Fin 16, s.keyW.getLsbD i = true) →
      exec .lock s = .next { s with locked := true, status := 0x01#8 }) ∧
    (s.locked = false → ((∃ i : Fin 6, s.sigW.getLsbD i = false) ∨ ∃ i : Fin 16, s.keyW.getLsbD i = false) →
      exec .lock s = .next { s with status := 0x47#8 })

/-- R110 and R112 to R116: what FILTER does, case by case in the order of the filter's steps. No byte is needed written but
the ones the step that decides reads. That a fault names the first unwritten byte by index, and one of FRAME[2..7] before
one of SIG, is the model's reading of R110's pseudocode (notes 3); the latter shows only while locked with SIG unwritten,
which no run reaches. -/
def Obligations.FilterCommand : Prop :=
  ∀ s : State,
    (s.locked = false → exec .filter s = .next { s with status := 0x47#8 }) ∧
    (s.locked = true → s.frameLen.toNat < 22 →
      exec .filter s = .next { s with status := if s.verbose then 0x42#8 else 0x02#8 }) ∧
    (s.locked = true → 22 ≤ s.frameLen.toNat →
      ∀ k, FirstHole s.frameW 2 6 k → exec .filter s = .fault (.unwrittenRead .frame k)) ∧
    (s.locked = true → 22 ≤ s.frameLen.toNat → AllWritten s.frameW 2 6 →
      ∀ k, FirstHole s.sigW 0 6 k → exec .filter s = .fault (.unwrittenRead .sig k)) ∧
    (s.locked = true → 22 ≤ s.frameLen.toNat → AllWritten s.frameW 2 6 → AllWritten s.sigW 0 6 →
      ¬ SignatureMatches s →
      exec .filter s = .next { s with status := if s.verbose then 0x53#8 else 0x13#8 }) ∧
    (s.locked = true → 22 ≤ s.frameLen.toNat → s.frameLen.toNat ≠ 24 → AllWritten s.frameW 2 6 →
      AllWritten s.sigW 0 6 → SignatureMatches s →
      exec .filter s = .next { s with status := if s.verbose then 0x54#8 else 0x14#8 }) ∧
    (s.locked = true → s.frameLen.toNat = 24 → AllWritten s.frameW 2 6 → AllWritten s.sigW 0 6 → SignatureMatches s →
      ∀ k, FirstHole s.frameW 8 16 k → exec .filter s = .fault (.unwrittenRead .frame k)) ∧
    (s.locked = true → s.frameLen.toNat = 24 → AllWritten s.frameW 2 22 → AllWritten s.sigW 0 6 → SignatureMatches s →
      ∃ ct : Block, (∀ i : Fin 16, ct[i] = s.frame[8 + i.val]) ∧
        exec .filter s = .next { s with blk := ct, blkW := BitVec.allOnes 16, status := 0x11#8 })

/-- R201 and R110: what PROCESS does, case by case: the filter's cases without a write of BLK, then the key check, then the
inverse cipher of the ciphertext, its count, and the record of the plaintext. That a fault names the
first unwritten byte by index, and one of FRAME[2..7] before one of SIG, is the model's reading of R110's pseudocode
(notes 3), as in FilterCommand. -/
def Obligations.ProcessCommand : Prop :=
  ∀ s : State,
    (s.locked = false → exec .process s = .next { s with status := 0x47#8 }) ∧
    (s.locked = true → s.frameLen.toNat < 22 →
      exec .process s = .next { s with status := if s.verbose then 0x42#8 else 0x02#8 }) ∧
    (s.locked = true → 22 ≤ s.frameLen.toNat →
      ∀ k, FirstHole s.frameW 2 6 k → exec .process s = .fault (.unwrittenRead .frame k)) ∧
    (s.locked = true → 22 ≤ s.frameLen.toNat → AllWritten s.frameW 2 6 →
      ∀ k, FirstHole s.sigW 0 6 k → exec .process s = .fault (.unwrittenRead .sig k)) ∧
    (s.locked = true → 22 ≤ s.frameLen.toNat → AllWritten s.frameW 2 6 → AllWritten s.sigW 0 6 →
      ¬ SignatureMatches s →
      exec .process s = .next { s with status := if s.verbose then 0x53#8 else 0x13#8 }) ∧
    (s.locked = true → 22 ≤ s.frameLen.toNat → s.frameLen.toNat ≠ 24 → AllWritten s.frameW 2 6 →
      AllWritten s.sigW 0 6 → SignatureMatches s →
      exec .process s = .next { s with status := if s.verbose then 0x54#8 else 0x14#8 }) ∧
    (s.locked = true → s.frameLen.toNat = 24 → AllWritten s.frameW 2 6 → AllWritten s.sigW 0 6 → SignatureMatches s →
      ∀ k, FirstHole s.frameW 8 16 k → exec .process s = .fault (.unwrittenRead .frame k)) ∧
    (s.locked = true → s.frameLen.toNat = 24 → AllWritten s.frameW 2 22 → AllWritten s.sigW 0 6 → SignatureMatches s →
      s.keyW ≠ 0xFFFF#16 → exec .process s = .next { s with status := 0x55#8 }) ∧
    (s.locked = true → s.frameLen.toNat = 24 → AllWritten s.frameW 2 22 → AllWritten s.sigW 0 6 → SignatureMatches s →
      s.keyW = 0xFFFF#16 →
      ∃ ct x : Block, (∀ i : Fin 16, ct[i] = s.frame[8 + i.val]) ∧ x = Aes.invCipher s.key ct ∧
        exec .process s = .next { s with blk := x, blkW := BitVec.allOnes 16, decCount := s.decCount + 1#8,
                                         resTemp := be16 x[0] x[1], resHum := be16 x[2] x[3], resBatt := x[4],
                                         status := 0xF1#8 })

/-- R150: DECRYPT with an incomplete key, with an unwritten block byte, and otherwise. That the fault names the first
unwritten byte by index is the model's reading (notes 3); vector V-C8g fixes it for an unwritten BLK[0]. -/
def Obligations.DecryptCommand : Prop :=
  ∀ s : State,
    (s.keyW ≠ 0xFFFF#16 → exec .decrypt s = .next { s with status := 0x45#8 }) ∧
    (s.keyW = 0xFFFF#16 → ∀ k, FirstHole s.blkW 0 16 k → exec .decrypt s = .fault (.unwrittenRead .blk k)) ∧
    (s.keyW = 0xFFFF#16 → AllWritten s.blkW 0 16 →
      exec .decrypt s = .next { s with blk := Aes.invCipher s.key s.blk, blkW := BitVec.allOnes 16,
                                       decCount := s.decCount + 1#8, status := 0x21#8 })

/-- R151: ENCRYPT with an incomplete key, with an unwritten block byte, and otherwise; it counts nothing. That the fault
names the first unwritten byte by index is the model's reading (notes 3). -/
def Obligations.EncryptCommand : Prop :=
  ∀ s : State,
    (s.keyW ≠ 0xFFFF#16 → exec .encrypt s = .next { s with status := 0x47#8 }) ∧
    (s.keyW = 0xFFFF#16 → ∀ k, FirstHole s.blkW 0 16 k → exec .encrypt s = .fault (.unwrittenRead .blk k)) ∧
    (s.keyW = 0xFFFF#16 → AllWritten s.blkW 0 16 →
      exec .encrypt s = .next { s with blk := Aes.cipher s.key s.blk, blkW := BitVec.allOnes 16, status := 0x01#8 })

/-- R187, with the fields of R180 to R183: EXTRACT reads BLK[0..4] alone. The fields are given as numbers: the byte at
the lower offset is the more significant. That the fault names the first unwritten byte by index is the model's reading
(notes 3); vector V-X6 fixes it where BLK[4] alone is unwritten. -/
def Obligations.ExtractCommand : Prop :=
  ∀ s : State,
    (∀ k, FirstHole s.blkW 0 5 k → exec .extract s = .fault (.unwrittenRead .blk k)) ∧
    (AllWritten s.blkW 0 5 → ∃ t h : HalfWord,
      t.toNat = 256 * s.blk[0].toNat + s.blk[1].toNat ∧ h.toNat = 256 * s.blk[2].toNat + s.blk[3].toNat ∧
      exec .extract s = .next { s with resTemp := t, resHum := h, resBatt := s.blk[4], status := 0xC1#8 })

/-- R188: DECODE with an incomplete key, with an unwritten block byte, and otherwise. That the fault names the first
unwritten byte by index is the model's reading (notes 3). -/
def Obligations.DecodeCommand : Prop :=
  ∀ s : State,
    (s.keyW ≠ 0xFFFF#16 → exec .decode s = .next { s with status := 0x45#8 }) ∧
    (s.keyW = 0xFFFF#16 → ∀ k, FirstHole s.blkW 0 16 k → exec .decode s = .fault (.unwrittenRead .blk k)) ∧
    (s.keyW = 0xFFFF#16 → AllWritten s.blkW 0 16 →
      ∃ x : Block, x = Aes.invCipher s.key s.blk ∧
        exec .decode s = .next { s with blk := x, blkW := BitVec.allOnes 16, decCount := s.decCount + 1#8,
                                        resTemp := be16 x[0] x[1], resHum := be16 x[2] x[3], resBatt := x[4],
                                        status := 0xE1#8 })

/-- R205: every reserved opcode sets STATUS to 0x48 and ERR bit 1 and changes nothing else, locked or not. -/
def Obligations.ReservedCommands : Prop :=
  ∀ (opc : Byte) (s : State),
    ∀ i ∈ [Instr.reserved09, .reserved0A opc, .reserved0C opc, .reserved10 opc, .reserved20 opc, .reserved40 opc,
        .reserved80 opc],
      exec i s = .next { s with status := 0x48#8, err := s.err ||| 0x02#8 }

/-! ## Host transactions -/

/-- R61: what a host read of each mapped address returns. The block's state never changes: only the host's record does. -/
def Obligations.HostReadValues : Prop :=
  ∀ s : State,
    ReadReturns s 0x00#8 0x00#8 ∧ ReadReturns s 0x01#8 s.status ∧
    ReadReturns s 0x02#8 ((if s.locked then 0x02#8 else 0x00#8) ||| (if s.verbose then 0x01#8 else 0x00#8)) ∧
    ReadReturns s 0x03#8 s.err ∧ ReadReturns s 0x04#8 s.decCount ∧
    ReadReturns s 0x06#8 (s.frameLen.extractLsb' 8 8) ∧ ReadReturns s 0x07#8 (s.frameLen.extractLsb' 0 8) ∧
    ReadReturns s 0x08#8 (s.sigW.setWidth 8) ∧
    ReadReturns s 0x0A#8 (s.keyW.extractLsb' 8 8) ∧ ReadReturns s 0x0B#8 (s.keyW.extractLsb' 0 8) ∧
    ReadReturns s 0x10#8 (s.resTemp.extractLsb' 8 8) ∧ ReadReturns s 0x11#8 (s.resTemp.extractLsb' 0 8) ∧
    ReadReturns s 0x12#8 (s.resHum.extractLsb' 8 8) ∧ ReadReturns s 0x13#8 (s.resHum.extractLsb' 0 8) ∧
    ReadReturns s 0x14#8 s.resBatt ∧
    (∀ i : Fin 6, (s.sigW.getLsbD i = true → ReadReturns s (BitVec.ofNat 8 (0x20 + i)) s.sig[i]) ∧
      (s.sigW.getLsbD i = false → exec (.htxRd (BitVec.ofNat 8 (0x20 + i))) s = .fault (.unwrittenRead .sig i))) ∧
    (∀ i : Fin 16, ReadReturns s (BitVec.ofNat 8 (0x30 + i)) 0x00#8) ∧
    (∀ i : Fin 16, (s.blkW.getLsbD i = true → ReadReturns s (BitVec.ofNat 8 (0x40 + i)) s.blk[i]) ∧
      (s.blkW.getLsbD i = false → exec (.htxRd (BitVec.ofNat 8 (0x40 + i))) s = .fault (.unwrittenRead .blk i))) ∧
    (∀ i : Fin 24, (s.frameW.getLsbD i = true → ReadReturns s (BitVec.ofNat 8 (0x60 + i)) s.frame[i]) ∧
      (s.frameW.getLsbD i = false → exec (.htxRd (BitVec.ofNat 8 (0x60 + i))) s = .fault (.unwrittenRead .frame i))) ∧
    ∀ a : Byte, regAt a = none → ReadReturns s a 0x00#8

/-- R62: what a host write to each address does; a write to CMD executes the command whose opcode it is. -/
def Obligations.HostWriteEffects : Prop :=
  ∀ (s : State) (d : Byte),
    exec (.htxWr 0x00#8 d) s = exec (decodeCmd8 d) s ∧
    WriteGives s 0x02#8 d { s with verbose := d.getLsbD 0 } ∧
    WriteGives s 0x03#8 d { s with err := s.err &&& ~~~d &&& 0x07#8 } ∧
    WriteGives s 0x06#8 d { s with frameLen := d ++ s.frameLen.extractLsb' 0 8 } ∧
    WriteGives s 0x07#8 d { s with frameLen := s.frameLen.extractLsb' 8 8 ++ d } ∧
    (∀ a ∈ [0x01#8, 0x04#8, 0x08#8, 0x0A#8, 0x0B#8, 0x10#8, 0x11#8, 0x12#8, 0x13#8, 0x14#8],
      WriteGives s a d { s with err := s.err ||| 0x04#8 }) ∧
    (∀ i : Fin 6, WriteGives s (BitVec.ofNat 8 (0x20 + i)) d
      (if s.locked then { s with err := s.err ||| 0x01#8 }
       else { s with sig := s.sig.set i d, sigW := s.sigW ||| (1#6 <<< i.val) })) ∧
    (∀ i : Fin 16, WriteGives s (BitVec.ofNat 8 (0x30 + i)) d
      (if s.locked then { s with err := s.err ||| 0x01#8 }
       else { s with key := s.key.set i d, keyW := s.keyW ||| (1#16 <<< i.val) })) ∧
    (∀ i : Fin 16, WriteGives s (BitVec.ofNat 8 (0x40 + i)) d
      { s with blk := s.blk.set i d, blkW := s.blkW ||| (1#16 <<< i.val) }) ∧
    (∀ i : Fin 24, WriteGives s (BitVec.ofNat 8 (0x60 + i)) d
      { s with frame := s.frame.set i d, frameW := s.frameW ||| (1#24 <<< i.val) }) ∧
    ∀ a : Byte, regAt a = none → WriteGives s a d { s with err := s.err ||| 0x04#8 }

/-- R23: the map and its addresses are inverse to each other, and exactly 77 of the 256 addresses are mapped. -/
def Obligations.RegisterMapExact : Prop :=
  (∀ r : Reg, regAt r.address = some r) ∧ (∀ (a : Byte) (r : Reg), regAt a = some r → r.address = a) ∧
  ((List.range 256).filter fun n => (regAt (BitVec.ofNat 8 n)).isSome).length = 77

/-- R68: the unmapped addresses; a read of one returns 0x00 and changes nothing, a write of one sets BAD_ACCESS only. -/
def Obligations.UnmappedAddresses : Prop :=
  ∀ (s : State) (a d : Byte),
    (a.toNat = 0x05 ∨ a.toNat = 0x09 ∨ (0x0C ≤ a.toNat ∧ a.toNat ≤ 0x0F) ∨ (0x15 ≤ a.toNat ∧ a.toNat ≤ 0x1F) ∨
      (0x26 ≤ a.toNat ∧ a.toNat ≤ 0x2F) ∨ (0x50 ≤ a.toNat ∧ a.toNat ≤ 0x5F) ∨ 0x78 ≤ a.toNat) →
    regAt a = none ∧ ReadReturns s a 0x00#8 ∧ WriteGives s a d { s with err := s.err ||| 0x04#8 }

/-- R69: a write to a read-only register is ignored and sets BAD_ACCESS; a write to CTRL changes VERBOSE alone, whatever
its bits 7:1, and is no error. -/
def Obligations.ReadOnlyWritesIgnored : Prop :=
  ∀ (s : State) (d : Byte),
    (∀ r ∈ [Reg.status, .decCount, .sigValid, .keyValidH, .keyValidL, .resTempH, .resTempL, .resHumH, .resHumL,
      .resBatt], WriteGives s r.address d { s with err := s.err ||| 0x04#8 }) ∧
    WriteGives s Reg.ctrl.address d { s with verbose := d.getLsbD 0 }

/-- R71: while locked a write to SIG or KEY only sets LOCKED_WRITE; while unlocked it stores, any number of times, and
the last write holds. -/
def Obligations.ConfigurationWrites : Prop :=
  ∀ (s : State) (d e : Byte),
    (s.locked = true →
      (∀ i : Fin 6, WriteGives s (Reg.sig i).address d { s with err := s.err ||| 0x01#8 }) ∧
      ∀ i : Fin 16, WriteGives s (Reg.key i).address d { s with err := s.err ||| 0x01#8 }) ∧
    (s.locked = false →
      (∀ i : Fin 6, ∃ t u : State, WriteGives s (Reg.sig i).address d t ∧ WriteGives t (Reg.sig i).address e u ∧
        WriteGives s (Reg.sig i).address e u ∧ u = { s with sig := s.sig.set i e, sigW := u.sigW } ∧
        ∀ j, u.sigW.getLsbD j = (s.sigW.getLsbD j || decide (j = i.val))) ∧
      ∀ i : Fin 16, ∃ t u : State, WriteGives s (Reg.key i).address d t ∧ WriteGives t (Reg.key i).address e u ∧
        WriteGives s (Reg.key i).address e u ∧ u = { s with key := s.key.set i e, keyW := u.keyW } ∧
        ∀ j, u.keyW.getLsbD j = (s.keyW.getLsbD j || decide (j = i.val)))

/-- R26: a write of `d` to ERR clears exactly the bits that are 1 in `d`. -/
def Obligations.ErrWriteOneToClear : Prop :=
  ∀ (s : State) (d : Byte), LegalState s → ∃ v : Byte,
    WriteGives s 0x03#8 d { s with err := v } ∧ ∀ i, v.getLsbD i = (s.err.getLsbD i && !d.getLsbD i)

/-- R64: FRAME_LEN written as two bytes in either order is the big-endian number of the two, and each 16-bit register
reads back as the two bytes of its number, the high one at the lower address. -/
def Obligations.SixteenBitRegistersBigEndian : Prop :=
  (∀ (s : State) (h l : Byte), ∃ t u : State, ∃ v : HalfWord,
    v.toNat = 256 * h.toNat + l.toNat ∧
    WriteGives s 0x06#8 h t ∧ WriteGives t 0x07#8 l { s with frameLen := v } ∧
    WriteGives s 0x07#8 l u ∧ WriteGives u 0x06#8 h { s with frameLen := v }) ∧
  ∀ s : State, ∀ p ∈ [(0x06, s.frameLen), (0x0A, s.keyW), (0x10, s.resTemp), (0x12, s.resHum)], ∃ h l : Byte,
    ReadReturns s (BitVec.ofNat 8 p.1) h ∧ ReadReturns s (BitVec.ofNat 8 (p.1 + 1)) l ∧
    256 * h.toNat + l.toNat = p.2.toNat

/-- The frame of a host write other than to CMD, through the host's own reads: every other address reads as before, but
for ERR, and for SIG_VALID after a write to SIG and KEY_VALID after a write to KEY; and a byte stored in BLK or FRAME, or
in SIG while unlocked, reads back (R62, R67, R73). -/
def Obligations.HostWriteFrame : Prop :=
  ∀ (s : State) (a d : Byte), a ≠ 0x00#8 → ∃ t : State,
    WriteGives s a d t ∧
    (∀ b : Byte, b ≠ a → b ≠ 0x03#8 →
      (b = 0x08#8 → ¬ (0x20 ≤ a.toNat ∧ a.toNat ≤ 0x25)) →
      (b = 0x0A#8 ∨ b = 0x0B#8 → ¬ (0x30 ≤ a.toNat ∧ a.toNat ≤ 0x3F)) → hostRead b t = hostRead b s) ∧
    ((0x40 ≤ a.toNat ∧ a.toNat ≤ 0x4F) ∨ (0x60 ≤ a.toNat ∧ a.toNat ≤ 0x77) ∨
      (s.locked = false ∧ 0x20 ≤ a.toNat ∧ a.toNat ≤ 0x25) → hostRead a t = .ok d)

/-- No host read depends on what KEY holds (R37). -/
def Obligations.KeyNeverReadBack : Prop :=
  ∀ (a : Byte) (s : State) (k : Block), hostRead a { s with key := k } = hostRead a s

/-! ## Rules of the whole machine -/

/-- Every step keeps the invariant: STATUS stays one of its legal values (in particular RESULT is never 6 or 9 to 15),
ERR's reserved bits stay 0, and a locked block has its whole configuration. -/
def Obligations.StepKeepsLegalState : Prop :=
  ∀ s t : State, LegalState s → step s = .next t → LegalState t

/-- The invariant holds right after reset. -/
def Obligations.ResetIsLegal : Prop := LegalState State.reset

/-- Only reset unlocks: every other step from a locked state leaves the lock, the signature and the key as they are. -/
def Obligations.LockedConfigurationPersists : Prop :=
  ∀ s t : State, s.locked = true → (∀ rest, s.program ≠ .reset :: rest) → step s = .next t →
    t.locked = true ∧ t.sig = s.sig ∧ t.sigW = s.sigW ∧ t.key = s.key ∧ t.keyW = s.keyW

/-- R27: DEC_COUNT goes up by one, modulo 256, exactly when a DECRYPT, DECODE or PROCESS ran the inverse cipher to
completion (DECRUN = 1); nothing else changes it, a host write to it sets BAD_ACCESS, and it is 0 after reset. -/
def Obligations.DecCountCountsInverseCiphers : Prop :=
  (∀ (i : Instr) (s t : State), exec i s = .next t →
    t.decCount = s.decCount +
      (if commandRun i ∈ [some .decrypt, some .decode, some .process] ∧ statusDecrun t.status = true then 1#8
       else 0#8)) ∧
  (∀ (s : State) (d : Byte), ReadReturns s 0x04#8 s.decCount ∧
    WriteGives s 0x04#8 d { s with err := s.err ||| 0x04#8 }) ∧
  State.reset.decCount = 0x00#8

/-- R32 to R34: the result registers change only together: to the fields of BLK, by an EXTRACT, DECODE or PROCESS that
ends with REC = 1, or to zero, by CLEAR. -/
def Obligations.ResultRegistersChangeTogether : Prop :=
  ∀ (i : Instr) (s t : State), exec i s = .next t →
    (t.resTemp = s.resTemp ∧ t.resHum = s.resHum ∧ t.resBatt = s.resBatt) ∨
    (commandRun i = some .clear ∧ t.resTemp = 0#16 ∧ t.resHum = 0#16 ∧ t.resBatt = 0#8) ∨
    (commandRun i ∈ [some .extract, some .decode, some .process] ∧ statusRec t.status = true ∧
      t.resTemp = be16 t.blk[0] t.blk[1] ∧ t.resHum = be16 t.blk[2] t.blk[3] ∧ t.resBatt = t.blk[4])

/-- STATUS is written by commands other than NOP and by nothing else: no host read and no host write changes it except
through a command (R24, R62). -/
def Obligations.StatusWrittenOnlyByCommands : Prop :=
  ∀ (i : Instr) (s t : State), exec i s = .next t → commandRun i = none ∨ commandRun i = some .nop →
    t.status = s.status

/-- R200: a command that ends with a RESULT other than OK (and CLEAR, which ends with NONE, apart) changed STATUS only,
and, for a reserved opcode, ERR.BAD_CMD. -/
def Obligations.FailedCommandChangesOnlyStatus : Prop :=
  ∀ (i c : Instr) (s t : State), commandRun i = some c → c ≠ .nop → c ≠ .clear → exec i s = .next t →
    statusResult t.status ≠ 1#4 →
    t = { s with status := t.status, err := if isReserved c then s.err ||| 0x02#8 else s.err }

/-- R189: after every command but NOP, EMIT is what the policy's table gives for RESULT, REC and VERBOSE. -/
def Obligations.EmitFollowsPolicy : Prop :=
  ∀ (i c : Instr) (s t : State), commandRun i = some c → c ≠ .nop → exec i s = .next t →
    (statusResult t.status = 0#4 → statusEmit t.status = false) ∧
    (statusResult t.status = 1#4 → statusEmit t.status = statusRec t.status) ∧
    (2 ≤ (statusResult t.status).toNat → (statusResult t.status).toNat ≤ 4 → statusEmit t.status = t.verbose) ∧
    (5 ≤ (statusResult t.status).toNat → statusEmit t.status = true) ∧
    (statusRec t.status = true → statusResult t.status = 1#4)

/-- No command writes FRAME, the signature, the key or the verbosity; only LOCK changes the lock, and only a reserved
opcode changes ERR (R25, R26, R35 to R37). The host's program and record are the host's. -/
def Obligations.CommandsKeepFrameAndConfiguration : Prop :=
  ∀ (i c : Instr) (s t : State), commandRun i = some c → exec i s = .next t →
    t.frame = s.frame ∧ t.frameW = s.frameW ∧ t.sig = s.sig ∧ t.sigW = s.sigW ∧ t.key = s.key ∧ t.keyW = s.keyW ∧
    t.verbose = s.verbose ∧ t.program = s.program ∧ t.reads = s.reads ∧
    (c ≠ .lock → t.locked = s.locked) ∧ (isReserved c = false → t.err = s.err) ∧
    (c ≠ .clear → t.frameLen = s.frameLen)

/-- One transaction sets at most one bit of ERR, and clears none unless it is a write to ERR (R222, R223 (e)). -/
def Obligations.TransactionSetsAtMostOneErrorBit : Prop :=
  ∀ (i : Instr) (s t : State), exec i s = .next t → (∀ d, i ≠ .htxWr 0x03#8 d) →
    ∃ bit ∈ [0x00#8, 0x01#8, 0x02#8, 0x04#8], t.err = s.err ||| bit

/-- No outcome depends on what is stored in a byte that holds no value: from two states that differ only there, a step
gives the same fault, the same refusal, or next states that again differ only there (R70, D22). -/
def Obligations.UnwrittenBytesNeverObserved : Prop :=
  ∀ s t : State, AgreeOnWritten s t → OutcomesAgree (step s) (step t)

/-- The filter never reads a frame byte at or beyond FRAME_LEN, nor the company identifier: a frame byte can matter only
if it is one of 2 to 7 and FRAME_LEN ≥ 22, or one of 8 to 23 and FRAME_LEN = 24, and SIG only if FRAME_LEN ≥ 22; that the
byte holds no value can matter only there too (the spec's own inference in R117, and R118 and R119). -/
def Obligations.FilterReadsOnlyItsBytes : Prop :=
  ∀ s t : State, t.frameLen = s.frameLen → (22 ≤ s.frameLen.toNat → t.sig = s.sig ∧ t.sigW = s.sigW) →
    (∀ i : Fin 24, (22 ≤ s.frameLen.toNat ∧ 2 ≤ i.val ∧ i.val < 8) ∨ (s.frameLen.toNat = 24 ∧ 8 ≤ i.val) →
      t.frameW.getLsbD i = s.frameW.getLsbD i ∧ t.frame[i] = s.frame[i]) →
    filterFn t = filterFn s

/-- The spec's own inference in R77: on a frame given as its length and its first 24 bytes the block's filter answers what the document's filter
answers on the whole byte sequence, also where the sequence is longer than FRAME_LEN can say and the host writes any
length from 25 on. -/
def Obligations.FilterAgreesWithDocument : Prop :=
  (∀ (s : State) (raw : List Byte), HoldsFrame s raw → AllWritten s.sigW 0 6 →
    filterFn s = .ok (documentFilter raw s.sig)) ∧
  ∀ (s : State) (raw : List Byte), 65536 ≤ raw.length → 25 ≤ s.frameLen.toNat →
    (∀ i : Fin 24, s.frameW.getLsbD i = true ∧ raw[i.val]? = some s.frame[i]) → AllWritten s.sigW 0 6 →
    filterFn s = .ok (documentFilter raw s.sig)

/-- The spec's own inference in R206: for one configuration, what PROCESS writes depends on FRAME_LEN and FRAME alone, and what DECODE writes on BLK
alone, whatever ran before; so PROCESS run again on the frame it has just processed writes the same values again, and
DEC_COUNT advances by the same amount, 1 or 0. -/
def Obligations.CommandsIndependentOfHistory : Prop :=
  (∀ s s' t : State, SameConfiguration s s' → s'.frameLen = s.frameLen → s'.frame = s.frame → s'.frameW = s.frameW →
    exec .process s = .next t → ∃ u : State, exec .process s' = .next u ∧ SameResults s t s' u) ∧
  (∀ s s' t : State, SameConfiguration s s' → s'.blk = s.blk → s'.blkW = s.blkW →
    exec .decode s = .next t → ∃ u : State, exec .decode s' = .next u ∧ SameResults s t s' u) ∧
  ∀ s t : State, exec .process s = .next t → ∃ u : State, exec .process t = .next u ∧
    u.blk = t.blk ∧ u.resTemp = t.resTemp ∧ u.resHum = t.resHum ∧ u.resBatt = t.resBatt ∧ u.status = t.status ∧
    u.decCount - t.decCount = t.decCount - s.decCount ∧ t.decCount - s.decCount ∈ [0#8, 1#8]

/-- PROCESS is FILTER and then, if it accepted, DECODE (R93): the same state but for STATUS.SIGCMP, which DECODE
clears. -/
def Obligations.ProcessIsFilterThenDecode : Prop :=
  ∀ s t : State, LegalState s → exec .filter s = .next t →
    (statusResult t.status ≠ 1#4 → exec .process s = .next t) ∧
    (statusResult t.status = 1#4 → ∃ u : State, exec .decode t = .next u ∧
      exec .process s = .next { u with status := u.status ||| 0x10#8 })

/-- DECODE is DECRYPT and then, if it succeeded, EXTRACT (R93): the same state but for STATUS.DECRUN, which EXTRACT
clears. -/
def Obligations.DecodeIsDecryptThenExtract : Prop :=
  ∀ s t : State, exec .decrypt s = .next t →
    (statusResult t.status ≠ 1#4 → exec .decode s = .next t) ∧
    (statusResult t.status = 1#4 → ∃ u : State, exec .extract t = .next u ∧
      exec .decode s = .next { u with status := u.status ||| 0x20#8 })

/-- With a complete key, ENCRYPT and then DECODE of a written block gives back the block and its record, and so does
ENCRYPT and then DECRYPT (the document's round trip, R143, S-P4). -/
def Obligations.EncryptThenDecodeRoundTrip : Prop :=
  ∀ s : State, s.keyW = 0xFFFF#16 → AllWritten s.blkW 0 16 → ∃ t u v : State,
    exec .encrypt s = .next t ∧ exec .decode t = .next u ∧ exec .decrypt t = .next v ∧
    u.blk = s.blk ∧ u.resTemp = be16 s.blk[0] s.blk[1] ∧ u.resHum = be16 s.blk[2] s.blk[3] ∧
    u.resBatt = s.blk[4] ∧ v.blk = s.blk ∧ u.decCount = s.decCount + 1#8

/-- A run of a legal program that neither faults nor is refused ends with the program performed whole, and it returns one
value for each of the program's reads, after the values returned before it (R263; that a reset may stand in a program is
the model's choice, notes 4). -/
def Obligations.RunPerformsWholeProgram : Prop :=
  ∀ (s t : State) (r : List Byte), runResult s = some (t, r) →
    t.program = [] ∧ ∃ new : List Byte, r = s.reads ++ new ∧ new.length = readCount s.program

/-! ## The cipher -/

/-- The spec's own inference in R143: the inverse cipher and the cipher undo each other, for every key and every block. -/
def Obligations.CipherInverseLaw : Prop :=
  ∀ k x : Block, Aes.invCipher k (Aes.cipher k x) = x ∧ Aes.cipher k (Aes.invCipher k x) = x

/-- R134: each entry of the one table is the affine image of the multiplicative inverse (0 for 0), and the other table is
the inverse permutation (also R133). -/
def Obligations.SboxMatchesDefinition : Prop :=
  ∀ a : Byte, Aes.invSbox (Aes.sbox a) = a ∧ Aes.sbox (Aes.invSbox a) = a ∧ ∃ b : Byte, ((a = 0#8 ∧ b = 0#8) ∨ Aes.gmul a b = 1#8) ∧
    Aes.sbox a = b ^^^ b.rotateLeft 1 ^^^ b.rotateLeft 2 ^^^ b.rotateLeft 3 ^^^ b.rotateLeft 4 ^^^ 0x63#8

/-- R135 and R136 by index, with byte `r + 4c` standing for `s[r, c]`; InvShiftRows undoes ShiftRows. -/
def Obligations.RowShiftsByIndex : Prop :=
  (∀ s : Aes.Array4, Aes.invShiftRows (Aes.shiftRows s) = s) ∧
  ∀ (x : Block) (r c : Fin 4),
    (Aes.store (Aes.shiftRows (Aes.load x)))[r.val + 4 * c.val]'(by omega) =
      x[r.val + 4 * ((c.val + r.val) % 4)]'(by omega) ∧
    (Aes.store (Aes.invShiftRows (Aes.load x)))[r.val + 4 * c.val]'(by omega) =
      x[r.val + 4 * ((c.val + 4 - r.val) % 4)]'(by omega)

/-- R138: InvMixColumns undoes MixColumns, and the other way round. -/
def Obligations.MixColumnsInverse : Prop :=
  ∀ s : Aes.Array4,
    Aes.invMixColumns (Aes.mixColumns s) = s ∧ Aes.mixColumns (Aes.invMixColumns s) = s

/-- R140: the 44 words of the key schedule obey the recurrence. -/
def Obligations.KeyScheduleRecurrence : Prop :=
  ∀ k : Block, (Aes.keyExpansion k).length = 44 ∧
    (∀ i : Fin 4, Aes.wordAt (Aes.keyExpansion k) i =
      ⟨k[4 * i.val], k[4 * i.val + 1], k[4 * i.val + 2], k[4 * i.val + 3]⟩) ∧
    ∀ i : Nat, 4 ≤ i → i < 44 →
      Aes.wordAt (Aes.keyExpansion k) i =
        Aes.xorCol (Aes.wordAt (Aes.keyExpansion k) (i - 4))
          (if i % 4 = 0 then
            Aes.xorCol (Aes.subWord (Aes.rotWord (Aes.wordAt (Aes.keyExpansion k) (i - 1))))
              ⟨Aes.roundConstant (i / 4), 0#8, 0#8, 0#8⟩
           else Aes.wordAt (Aes.keyExpansion k) (i - 1))

/-! ## Rendering and the assembler -/

/-- R185: the digits of a rendering are those of the exact value. -/
def Obligations.RenderingDigits : Prop :=
  ∀ v : HalfWord, ∃ q d1 d0 : Nat, v.toNat = 100 * q + 10 * d1 + d0 ∧ d1 ≤ 9 ∧ d0 ≤ 9 ∧
    renderHundredths v = toString q ++ "." ++ toString d1 ++ toString d0

/-- R184: the values the result registers stand for are exact: hundredths of a degree and of a percent, and a percent;
(the spec's own inference) they range from 0 to 655.35 and from 0 to 255. -/
def Obligations.ScaledValuesExact : Prop :=
  ∀ s : State,
    temperatureCelsius s * 100 = (s.resTemp.toNat : Rat) ∧ humidityPercent s * 100 = (s.resHum.toNat : Rat) ∧
    batteryPercent s = s.resBatt.toNat ∧
    0 ≤ temperatureCelsius s ∧ temperatureCelsius s ≤ 65535 / 100 ∧
    0 ≤ humidityPercent s ∧ humidityPercent s ≤ 65535 / 100 ∧ batteryPercent s ≤ 255

/-- Whatever the assembler accepts, every word it gives encodes a transaction (R91, R97 to R99). -/
def Obligations.AssembledWordsEncode : Prop :=
  ∀ (text : String) (ws : List Nat), Asm.assemble text = .ok ws →
    ∀ e ∈ Asm.programOf ws, EncodesEvent e
end

