-- ==== Sys2Proof/Laws/Aes.lean ====
section
/-! SUPPORT. Small lemmas of the AES parts: the closed forms of the constant multiplications (R131), `xtime` being
linear, and the parts that undo themselves or each other at once. -/

namespace Sys2Proof.Machine.Aes

theorem xor_xor_xor_comm (p q u v : Byte) : (p ^^^ q) ^^^ (u ^^^ v) = (p ^^^ u) ^^^ (q ^^^ v) := by
  rw [BitVec.xor_assoc, BitVec.xor_assoc, ← BitVec.xor_assoc q u v, BitVec.xor_comm q u, BitVec.xor_assoc u q v]

theorem xtime_xor (a b : Byte) : xtime (a ^^^ b) = xtime a ^^^ xtime b := by
  simp only [xtime, BitVec.shiftLeft_xor_distrib, BitVec.getLsbD_xor]
  rw [xor_xor_xor_comm (a <<< 1)]
  congr 1
  cases a.getLsbD 7 <;> cases b.getLsbD 7 <;> rfl

theorem gmul_two (a : Byte) : gmul a 0x02#8 = xtime a := by
  simp [gmul, xtimes, List.range_succ]

theorem gmul_three (a : Byte) : gmul a 0x03#8 = a ^^^ xtime a := by
  simp [gmul, xtimes, List.range_succ]

theorem gmul_nine (a : Byte) : gmul a 0x09#8 = a ^^^ xtime (xtime (xtime a)) := by
  simp [gmul, xtimes, List.range_succ]

theorem gmul_eleven (a : Byte) : gmul a 0x0B#8 = a ^^^ xtime a ^^^ xtime (xtime (xtime a)) := by
  simp [gmul, xtimes, List.range_succ]

theorem gmul_thirteen (a : Byte) : gmul a 0x0D#8 = a ^^^ xtime (xtime a) ^^^ xtime (xtime (xtime a)) := by
  simp [gmul, xtimes, List.range_succ]

theorem gmul_fourteen (a : Byte) : gmul a 0x0E#8 = xtime a ^^^ xtime (xtime a) ^^^ xtime (xtime (xtime a)) := by
  simp [gmul, xtimes, List.range_succ]

@[simp] theorem load_store (s : Array4) : load (store s) = s := rfl

@[simp] theorem store_load (x : Block) : store (load x) = x := by
  ext i hi
  simp only [store, load]
  interval_cases i <;> rfl

@[simp] theorem shiftRows_invShiftRows (s : Array4) : shiftRows (invShiftRows s) = s := rfl

@[simp] theorem invShiftRows_shiftRows (s : Array4) : invShiftRows (shiftRows s) = s := rfl

@[simp] theorem xorCol_xorCol (a k : Col) : xorCol (xorCol a k) k = a := by
  simp [xorCol]

@[simp] theorem addRoundKey_addRoundKey (k s : Array4) : addRoundKey k (addRoundKey k s) = s := by
  simp [addRoundKey]

end Sys2Proof.Machine.Aes
end

