-- ==== Sys2Proof/Laws/Operands.lean ====
section
/-! SUPPORT. What reading a range of bytes can do, the two halves of a 16-bit register, and the written-bits. -/

namespace Sys2Proof.Machine

theorem firstUnwritten_eq_none_iff {n : Nat} (w : BitVec n) (start count : Nat) :
    firstUnwritten w start count = none ↔ AllWritten w start count := by
  simp [firstUnwritten, AllWritten, List.mem_range'_1]

theorem firstUnwritten_eq_some_iff {n : Nat} (w : BitVec n) (start count k : Nat) :
    firstUnwritten w start count = some k ↔ FirstHole w start count k := by
  induction count generalizing start with
  | zero => simp [firstUnwritten, FirstHole]; omega
  | succ c ih =>
    have hstep : firstUnwritten w start (c + 1) =
        if w.getLsbD start then firstUnwritten w (start + 1) c else some start := by
      simp only [firstUnwritten, List.range'_succ, List.find?_cons]
      cases w.getLsbD start <;> simp
    rw [hstep]
    split
    · rename_i hs
      rw [ih (start + 1)]
      constructor
      · rintro ⟨h1, h2, h3, h4⟩
        refine ⟨by omega, by omega, h3, fun j hj hk => ?_⟩
        by_cases hjs : j = start
        · exact hjs ▸ hs
        · exact h4 j (by omega) hk
      · rintro ⟨h1, h2, h3, h4⟩
        have : k ≠ start := fun e => by simp [e, hs] at h3
        exact ⟨by omega, by omega, h3, fun j hj hk => h4 j (by omega) hk⟩
    · rename_i hs
      simp only [Bool.not_eq_true] at hs
      constructor
      · intro h
        cases h
        exact ⟨le_refl _, by omega, hs, fun j hj hk => by omega⟩
      · rintro ⟨h1, h2, h3, h4⟩
        by_cases hk : k = start
        · simp [hk]
        · have := h4 start (le_refl _) (by omega)
          simp [hs] at this

/-- All that reading a range can do: its value when every byte is written, else the fault of the first hole. -/
theorem readRange_of_allWritten {α : Type} {n : Nat} {array : ByteArrayName} {w : BitVec n} {start count : Nat} {v : α}
    (h : AllWritten w start count) : readRange array w start count v = .ok v := by
  simp [readRange, (firstUnwritten_eq_none_iff w start count).2 h]

theorem readRange_of_firstHole {α : Type} {n : Nat} {array : ByteArrayName} {w : BitVec n} {start count k : Nat} {v : α}
    (h : FirstHole w start count k) : readRange array w start count v = .error (.unwrittenRead array k) := by
  simp [readRange, (firstUnwritten_eq_some_iff w start count k).2 h]

theorem readRange_cases {α : Type} {n : Nat} (array : ByteArrayName) (w : BitVec n) (start count : Nat) (v : α) :
    (AllWritten w start count ∧ readRange array w start count v = .ok v) ∨
      ∃ k, FirstHole w start count k ∧ readRange array w start count v = .error (.unwrittenRead array k) := by
  rcases h : firstUnwritten w start count with _ | k
  · exact .inl ⟨(firstUnwritten_eq_none_iff w start count).1 h, by simp [readRange, h]⟩
  · exact .inr ⟨k, (firstUnwritten_eq_some_iff w start count k).1 h, by simp [readRange, h]⟩

theorem readRange_eq_ok {α : Type} {n : Nat} {array : ByteArrayName} {w : BitVec n} {start count : Nat} {v u : α}
    (h : readRange array w start count v = .ok u) : u = v ∧ AllWritten w start count := by
  rcases readRange_cases array w start count v with ⟨hw, he⟩ | ⟨k, _, he⟩ <;> rw [he] at h
  · exact ⟨(Except.ok.inj h).symm, hw⟩
  · cases h

theorem allWritten_allOnes {n start count : Nat} (h : start + count ≤ n) : AllWritten (BitVec.allOnes n) start count :=
  fun j _ hj => by simp; omega

/-- Reading one byte of an array: its written-bit decides (R70). -/
theorem readRange_one {α : Type} {n : Nat} (array : ByteArrayName) (w : BitVec n) (i : Nat) (v : α) :
    readRange array w i 1 v = if w.getLsbD i then .ok v else .error (.unwrittenRead array i) := by
  simp only [readRange, firstUnwritten, List.range'_one, List.find?_cons, List.find?_nil]
  cases w.getLsbD i <;> simp

@[simp] theorem be16_high_low (v : HalfWord) : be16 (highByte v) (lowByte v) = v := by
  ext i hi
  simp only [be16, highByte, lowByte, BitVec.getElem_or, BitVec.getElem_shiftLeft, BitVec.getElem_setWidth,
    BitVec.getLsbD_extractLsb']
  by_cases h8 : i < 8
  · simp [h8, BitVec.getLsbD_eq_getElem hi]
  · have : i - 8 < 8 := by omega
    simp [h8, this, show 8 + (i - 8) = i by omega, BitVec.getLsbD_eq_getElem hi]

@[simp] theorem highByte_be16 (h l : Byte) : highByte (be16 h l) = h := by
  ext i hi
  simp only [be16, highByte, BitVec.getElem_extractLsb', BitVec.getLsbD_or, BitVec.getLsbD_shiftLeft,
    BitVec.getLsbD_setWidth]
  simp [show 8 + i < 16 by omega, show i < 16 by omega, hi]

@[simp] theorem lowByte_be16 (h l : Byte) : lowByte (be16 h l) = l := by
  ext i hi
  simp only [be16, lowByte, BitVec.getElem_extractLsb', BitVec.getLsbD_or, BitVec.getLsbD_shiftLeft,
    BitVec.getLsbD_setWidth]
  simp [show i < 16 by omega, hi]

/-- `BE16` as a number: the byte at the lower offset is the more significant (R65). -/
theorem be16_toNat (h l : Byte) : (be16 h l).toNat = 256 * h.toNat + l.toNat := by
  have hl := l.isLt
  have hh := h.isLt
  simp only [be16, BitVec.toNat_or, BitVec.toNat_shiftLeft, BitVec.toNat_setWidth]
  rw [Nat.mod_eq_of_lt (show h.toNat < 2 ^ 16 by omega), Nat.mod_eq_of_lt (show l.toNat < 2 ^ 16 by omega),
    Nat.shiftLeft_eq, Nat.mod_eq_of_lt (show h.toNat * 2 ^ 8 < 2 ^ 16 by omega), Nat.mul_comm,
    ← Nat.two_pow_add_eq_or_of_lt hl]

theorem markWritten_getLsbD {n : Nat} (w : BitVec n) (i j : Nat) (hi : i < n) :
    (markWritten w i).getLsbD j = (w.getLsbD j || decide (j = i)) := by
  simp only [markWritten, BitVec.getLsbD_or, BitVec.getLsbD_shiftLeft, BitVec.getLsbD_one]
  by_cases hj : j = i
  · subst hj; simp [hi, show 0 < n by omega]
  · by_cases hlt : j < i
    · simp [hj, hlt]
    · simp [hj, hlt, show ¬ (j - i = 0) by omega]

end Sys2Proof.Machine
end

