-- ==== Sys2Proof/Laws/State.lean ====
section
/-! SUPPORT. One lemma per field per named update of State, each true by rfl, so that no proof unfolds a record update. -/

namespace Sys2Proof.Machine

/-! Fields after `finish`. -/

@[simp] theorem finish_status (c : ResultCode) (sc dr rc : Bool) (s : State) : (finish c sc dr rc s).status = statusByte c sc dr (emitPolicy c rc s.verbose) rc := rfl
@[simp] theorem finish_verbose (c : ResultCode) (sc dr rc : Bool) (s : State) : (finish c sc dr rc s).verbose = s.verbose := rfl
@[simp] theorem finish_locked (c : ResultCode) (sc dr rc : Bool) (s : State) : (finish c sc dr rc s).locked = s.locked := rfl
@[simp] theorem finish_err (c : ResultCode) (sc dr rc : Bool) (s : State) : (finish c sc dr rc s).err = s.err := rfl
@[simp] theorem finish_decCount (c : ResultCode) (sc dr rc : Bool) (s : State) : (finish c sc dr rc s).decCount = s.decCount := rfl
@[simp] theorem finish_frameLen (c : ResultCode) (sc dr rc : Bool) (s : State) : (finish c sc dr rc s).frameLen = s.frameLen := rfl
@[simp] theorem finish_sigW (c : ResultCode) (sc dr rc : Bool) (s : State) : (finish c sc dr rc s).sigW = s.sigW := rfl
@[simp] theorem finish_keyW (c : ResultCode) (sc dr rc : Bool) (s : State) : (finish c sc dr rc s).keyW = s.keyW := rfl
@[simp] theorem finish_resTemp (c : ResultCode) (sc dr rc : Bool) (s : State) : (finish c sc dr rc s).resTemp = s.resTemp := rfl
@[simp] theorem finish_resHum (c : ResultCode) (sc dr rc : Bool) (s : State) : (finish c sc dr rc s).resHum = s.resHum := rfl
@[simp] theorem finish_resBatt (c : ResultCode) (sc dr rc : Bool) (s : State) : (finish c sc dr rc s).resBatt = s.resBatt := rfl
@[simp] theorem finish_sig (c : ResultCode) (sc dr rc : Bool) (s : State) : (finish c sc dr rc s).sig = s.sig := rfl
@[simp] theorem finish_key (c : ResultCode) (sc dr rc : Bool) (s : State) : (finish c sc dr rc s).key = s.key := rfl
@[simp] theorem finish_blk (c : ResultCode) (sc dr rc : Bool) (s : State) : (finish c sc dr rc s).blk = s.blk := rfl
@[simp] theorem finish_frame (c : ResultCode) (sc dr rc : Bool) (s : State) : (finish c sc dr rc s).frame = s.frame := rfl
@[simp] theorem finish_blkW (c : ResultCode) (sc dr rc : Bool) (s : State) : (finish c sc dr rc s).blkW = s.blkW := rfl
@[simp] theorem finish_frameW (c : ResultCode) (sc dr rc : Bool) (s : State) : (finish c sc dr rc s).frameW = s.frameW := rfl
@[simp] theorem finish_program (c : ResultCode) (sc dr rc : Bool) (s : State) : (finish c sc dr rc s).program = s.program := rfl
@[simp] theorem finish_reads (c : ResultCode) (sc dr rc : Bool) (s : State) : (finish c sc dr rc s).reads = s.reads := rfl

/-! Fields after `setErr`. -/

@[simp] theorem setErr_status (b : Byte) (s : State) : (setErr b s).status = s.status := rfl
@[simp] theorem setErr_verbose (b : Byte) (s : State) : (setErr b s).verbose = s.verbose := rfl
@[simp] theorem setErr_locked (b : Byte) (s : State) : (setErr b s).locked = s.locked := rfl
@[simp] theorem setErr_err (b : Byte) (s : State) : (setErr b s).err = s.err ||| b := rfl
@[simp] theorem setErr_decCount (b : Byte) (s : State) : (setErr b s).decCount = s.decCount := rfl
@[simp] theorem setErr_frameLen (b : Byte) (s : State) : (setErr b s).frameLen = s.frameLen := rfl
@[simp] theorem setErr_sigW (b : Byte) (s : State) : (setErr b s).sigW = s.sigW := rfl
@[simp] theorem setErr_keyW (b : Byte) (s : State) : (setErr b s).keyW = s.keyW := rfl
@[simp] theorem setErr_resTemp (b : Byte) (s : State) : (setErr b s).resTemp = s.resTemp := rfl
@[simp] theorem setErr_resHum (b : Byte) (s : State) : (setErr b s).resHum = s.resHum := rfl
@[simp] theorem setErr_resBatt (b : Byte) (s : State) : (setErr b s).resBatt = s.resBatt := rfl
@[simp] theorem setErr_sig (b : Byte) (s : State) : (setErr b s).sig = s.sig := rfl
@[simp] theorem setErr_key (b : Byte) (s : State) : (setErr b s).key = s.key := rfl
@[simp] theorem setErr_blk (b : Byte) (s : State) : (setErr b s).blk = s.blk := rfl
@[simp] theorem setErr_frame (b : Byte) (s : State) : (setErr b s).frame = s.frame := rfl
@[simp] theorem setErr_blkW (b : Byte) (s : State) : (setErr b s).blkW = s.blkW := rfl
@[simp] theorem setErr_frameW (b : Byte) (s : State) : (setErr b s).frameW = s.frameW := rfl
@[simp] theorem setErr_program (b : Byte) (s : State) : (setErr b s).program = s.program := rfl
@[simp] theorem setErr_reads (b : Byte) (s : State) : (setErr b s).reads = s.reads := rfl

/-! Fields after `clearErr`. -/

@[simp] theorem clearErr_status (d : Byte) (s : State) : (clearErr d s).status = s.status := rfl
@[simp] theorem clearErr_verbose (d : Byte) (s : State) : (clearErr d s).verbose = s.verbose := rfl
@[simp] theorem clearErr_locked (d : Byte) (s : State) : (clearErr d s).locked = s.locked := rfl
@[simp] theorem clearErr_err (d : Byte) (s : State) : (clearErr d s).err = s.err &&& ~~~d &&& 0x07#8 := rfl
@[simp] theorem clearErr_decCount (d : Byte) (s : State) : (clearErr d s).decCount = s.decCount := rfl
@[simp] theorem clearErr_frameLen (d : Byte) (s : State) : (clearErr d s).frameLen = s.frameLen := rfl
@[simp] theorem clearErr_sigW (d : Byte) (s : State) : (clearErr d s).sigW = s.sigW := rfl
@[simp] theorem clearErr_keyW (d : Byte) (s : State) : (clearErr d s).keyW = s.keyW := rfl
@[simp] theorem clearErr_resTemp (d : Byte) (s : State) : (clearErr d s).resTemp = s.resTemp := rfl
@[simp] theorem clearErr_resHum (d : Byte) (s : State) : (clearErr d s).resHum = s.resHum := rfl
@[simp] theorem clearErr_resBatt (d : Byte) (s : State) : (clearErr d s).resBatt = s.resBatt := rfl
@[simp] theorem clearErr_sig (d : Byte) (s : State) : (clearErr d s).sig = s.sig := rfl
@[simp] theorem clearErr_key (d : Byte) (s : State) : (clearErr d s).key = s.key := rfl
@[simp] theorem clearErr_blk (d : Byte) (s : State) : (clearErr d s).blk = s.blk := rfl
@[simp] theorem clearErr_frame (d : Byte) (s : State) : (clearErr d s).frame = s.frame := rfl
@[simp] theorem clearErr_blkW (d : Byte) (s : State) : (clearErr d s).blkW = s.blkW := rfl
@[simp] theorem clearErr_frameW (d : Byte) (s : State) : (clearErr d s).frameW = s.frameW := rfl
@[simp] theorem clearErr_program (d : Byte) (s : State) : (clearErr d s).program = s.program := rfl
@[simp] theorem clearErr_reads (d : Byte) (s : State) : (clearErr d s).reads = s.reads := rfl

/-! Fields after `storeSig`. -/

@[simp] theorem storeSig_status (i : Fin 6) (d : Byte) (s : State) : (storeSig i d s).status = s.status := rfl
@[simp] theorem storeSig_verbose (i : Fin 6) (d : Byte) (s : State) : (storeSig i d s).verbose = s.verbose := rfl
@[simp] theorem storeSig_locked (i : Fin 6) (d : Byte) (s : State) : (storeSig i d s).locked = s.locked := rfl
@[simp] theorem storeSig_err (i : Fin 6) (d : Byte) (s : State) : (storeSig i d s).err = s.err := rfl
@[simp] theorem storeSig_decCount (i : Fin 6) (d : Byte) (s : State) : (storeSig i d s).decCount = s.decCount := rfl
@[simp] theorem storeSig_frameLen (i : Fin 6) (d : Byte) (s : State) : (storeSig i d s).frameLen = s.frameLen := rfl
@[simp] theorem storeSig_sigW (i : Fin 6) (d : Byte) (s : State) : (storeSig i d s).sigW = markWritten s.sigW i := rfl
@[simp] theorem storeSig_keyW (i : Fin 6) (d : Byte) (s : State) : (storeSig i d s).keyW = s.keyW := rfl
@[simp] theorem storeSig_resTemp (i : Fin 6) (d : Byte) (s : State) : (storeSig i d s).resTemp = s.resTemp := rfl
@[simp] theorem storeSig_resHum (i : Fin 6) (d : Byte) (s : State) : (storeSig i d s).resHum = s.resHum := rfl
@[simp] theorem storeSig_resBatt (i : Fin 6) (d : Byte) (s : State) : (storeSig i d s).resBatt = s.resBatt := rfl
@[simp] theorem storeSig_sig (i : Fin 6) (d : Byte) (s : State) : (storeSig i d s).sig = s.sig.set i d := rfl
@[simp] theorem storeSig_key (i : Fin 6) (d : Byte) (s : State) : (storeSig i d s).key = s.key := rfl
@[simp] theorem storeSig_blk (i : Fin 6) (d : Byte) (s : State) : (storeSig i d s).blk = s.blk := rfl
@[simp] theorem storeSig_frame (i : Fin 6) (d : Byte) (s : State) : (storeSig i d s).frame = s.frame := rfl
@[simp] theorem storeSig_blkW (i : Fin 6) (d : Byte) (s : State) : (storeSig i d s).blkW = s.blkW := rfl
@[simp] theorem storeSig_frameW (i : Fin 6) (d : Byte) (s : State) : (storeSig i d s).frameW = s.frameW := rfl
@[simp] theorem storeSig_program (i : Fin 6) (d : Byte) (s : State) : (storeSig i d s).program = s.program := rfl
@[simp] theorem storeSig_reads (i : Fin 6) (d : Byte) (s : State) : (storeSig i d s).reads = s.reads := rfl

/-! Fields after `storeKey`. -/

@[simp] theorem storeKey_status (i : Fin 16) (d : Byte) (s : State) : (storeKey i d s).status = s.status := rfl
@[simp] theorem storeKey_verbose (i : Fin 16) (d : Byte) (s : State) : (storeKey i d s).verbose = s.verbose := rfl
@[simp] theorem storeKey_locked (i : Fin 16) (d : Byte) (s : State) : (storeKey i d s).locked = s.locked := rfl
@[simp] theorem storeKey_err (i : Fin 16) (d : Byte) (s : State) : (storeKey i d s).err = s.err := rfl
@[simp] theorem storeKey_decCount (i : Fin 16) (d : Byte) (s : State) : (storeKey i d s).decCount = s.decCount := rfl
@[simp] theorem storeKey_frameLen (i : Fin 16) (d : Byte) (s : State) : (storeKey i d s).frameLen = s.frameLen := rfl
@[simp] theorem storeKey_sigW (i : Fin 16) (d : Byte) (s : State) : (storeKey i d s).sigW = s.sigW := rfl
@[simp] theorem storeKey_keyW (i : Fin 16) (d : Byte) (s : State) : (storeKey i d s).keyW = markWritten s.keyW i := rfl
@[simp] theorem storeKey_resTemp (i : Fin 16) (d : Byte) (s : State) : (storeKey i d s).resTemp = s.resTemp := rfl
@[simp] theorem storeKey_resHum (i : Fin 16) (d : Byte) (s : State) : (storeKey i d s).resHum = s.resHum := rfl
@[simp] theorem storeKey_resBatt (i : Fin 16) (d : Byte) (s : State) : (storeKey i d s).resBatt = s.resBatt := rfl
@[simp] theorem storeKey_sig (i : Fin 16) (d : Byte) (s : State) : (storeKey i d s).sig = s.sig := rfl
@[simp] theorem storeKey_key (i : Fin 16) (d : Byte) (s : State) : (storeKey i d s).key = s.key.set i d := rfl
@[simp] theorem storeKey_blk (i : Fin 16) (d : Byte) (s : State) : (storeKey i d s).blk = s.blk := rfl
@[simp] theorem storeKey_frame (i : Fin 16) (d : Byte) (s : State) : (storeKey i d s).frame = s.frame := rfl
@[simp] theorem storeKey_blkW (i : Fin 16) (d : Byte) (s : State) : (storeKey i d s).blkW = s.blkW := rfl
@[simp] theorem storeKey_frameW (i : Fin 16) (d : Byte) (s : State) : (storeKey i d s).frameW = s.frameW := rfl
@[simp] theorem storeKey_program (i : Fin 16) (d : Byte) (s : State) : (storeKey i d s).program = s.program := rfl
@[simp] theorem storeKey_reads (i : Fin 16) (d : Byte) (s : State) : (storeKey i d s).reads = s.reads := rfl

/-! Fields after `storeBlk`. -/

@[simp] theorem storeBlk_status (i : Fin 16) (d : Byte) (s : State) : (storeBlk i d s).status = s.status := rfl
@[simp] theorem storeBlk_verbose (i : Fin 16) (d : Byte) (s : State) : (storeBlk i d s).verbose = s.verbose := rfl
@[simp] theorem storeBlk_locked (i : Fin 16) (d : Byte) (s : State) : (storeBlk i d s).locked = s.locked := rfl
@[simp] theorem storeBlk_err (i : Fin 16) (d : Byte) (s : State) : (storeBlk i d s).err = s.err := rfl
@[simp] theorem storeBlk_decCount (i : Fin 16) (d : Byte) (s : State) : (storeBlk i d s).decCount = s.decCount := rfl
@[simp] theorem storeBlk_frameLen (i : Fin 16) (d : Byte) (s : State) : (storeBlk i d s).frameLen = s.frameLen := rfl
@[simp] theorem storeBlk_sigW (i : Fin 16) (d : Byte) (s : State) : (storeBlk i d s).sigW = s.sigW := rfl
@[simp] theorem storeBlk_keyW (i : Fin 16) (d : Byte) (s : State) : (storeBlk i d s).keyW = s.keyW := rfl
@[simp] theorem storeBlk_resTemp (i : Fin 16) (d : Byte) (s : State) : (storeBlk i d s).resTemp = s.resTemp := rfl
@[simp] theorem storeBlk_resHum (i : Fin 16) (d : Byte) (s : State) : (storeBlk i d s).resHum = s.resHum := rfl
@[simp] theorem storeBlk_resBatt (i : Fin 16) (d : Byte) (s : State) : (storeBlk i d s).resBatt = s.resBatt := rfl
@[simp] theorem storeBlk_sig (i : Fin 16) (d : Byte) (s : State) : (storeBlk i d s).sig = s.sig := rfl
@[simp] theorem storeBlk_key (i : Fin 16) (d : Byte) (s : State) : (storeBlk i d s).key = s.key := rfl
@[simp] theorem storeBlk_blk (i : Fin 16) (d : Byte) (s : State) : (storeBlk i d s).blk = s.blk.set i d := rfl
@[simp] theorem storeBlk_frame (i : Fin 16) (d : Byte) (s : State) : (storeBlk i d s).frame = s.frame := rfl
@[simp] theorem storeBlk_blkW (i : Fin 16) (d : Byte) (s : State) : (storeBlk i d s).blkW = markWritten s.blkW i := rfl
@[simp] theorem storeBlk_frameW (i : Fin 16) (d : Byte) (s : State) : (storeBlk i d s).frameW = s.frameW := rfl
@[simp] theorem storeBlk_program (i : Fin 16) (d : Byte) (s : State) : (storeBlk i d s).program = s.program := rfl
@[simp] theorem storeBlk_reads (i : Fin 16) (d : Byte) (s : State) : (storeBlk i d s).reads = s.reads := rfl

/-! Fields after `storeFrame`. -/

@[simp] theorem storeFrame_status (i : Fin 24) (d : Byte) (s : State) : (storeFrame i d s).status = s.status := rfl
@[simp] theorem storeFrame_verbose (i : Fin 24) (d : Byte) (s : State) : (storeFrame i d s).verbose = s.verbose := rfl
@[simp] theorem storeFrame_locked (i : Fin 24) (d : Byte) (s : State) : (storeFrame i d s).locked = s.locked := rfl
@[simp] theorem storeFrame_err (i : Fin 24) (d : Byte) (s : State) : (storeFrame i d s).err = s.err := rfl
@[simp] theorem storeFrame_decCount (i : Fin 24) (d : Byte) (s : State) : (storeFrame i d s).decCount = s.decCount := rfl
@[simp] theorem storeFrame_frameLen (i : Fin 24) (d : Byte) (s : State) : (storeFrame i d s).frameLen = s.frameLen := rfl
@[simp] theorem storeFrame_sigW (i : Fin 24) (d : Byte) (s : State) : (storeFrame i d s).sigW = s.sigW := rfl
@[simp] theorem storeFrame_keyW (i : Fin 24) (d : Byte) (s : State) : (storeFrame i d s).keyW = s.keyW := rfl
@[simp] theorem storeFrame_resTemp (i : Fin 24) (d : Byte) (s : State) : (storeFrame i d s).resTemp = s.resTemp := rfl
@[simp] theorem storeFrame_resHum (i : Fin 24) (d : Byte) (s : State) : (storeFrame i d s).resHum = s.resHum := rfl
@[simp] theorem storeFrame_resBatt (i : Fin 24) (d : Byte) (s : State) : (storeFrame i d s).resBatt = s.resBatt := rfl
@[simp] theorem storeFrame_sig (i : Fin 24) (d : Byte) (s : State) : (storeFrame i d s).sig = s.sig := rfl
@[simp] theorem storeFrame_key (i : Fin 24) (d : Byte) (s : State) : (storeFrame i d s).key = s.key := rfl
@[simp] theorem storeFrame_blk (i : Fin 24) (d : Byte) (s : State) : (storeFrame i d s).blk = s.blk := rfl
@[simp] theorem storeFrame_frame (i : Fin 24) (d : Byte) (s : State) : (storeFrame i d s).frame = s.frame.set i d := rfl
@[simp] theorem storeFrame_blkW (i : Fin 24) (d : Byte) (s : State) : (storeFrame i d s).blkW = s.blkW := rfl
@[simp] theorem storeFrame_frameW (i : Fin 24) (d : Byte) (s : State) : (storeFrame i d s).frameW = markWritten s.frameW i := rfl
@[simp] theorem storeFrame_program (i : Fin 24) (d : Byte) (s : State) : (storeFrame i d s).program = s.program := rfl
@[simp] theorem storeFrame_reads (i : Fin 24) (d : Byte) (s : State) : (storeFrame i d s).reads = s.reads := rfl

/-! Fields after `setBlk`. -/

@[simp] theorem setBlk_status (b : Block) (s : State) : (setBlk b s).status = s.status := rfl
@[simp] theorem setBlk_verbose (b : Block) (s : State) : (setBlk b s).verbose = s.verbose := rfl
@[simp] theorem setBlk_locked (b : Block) (s : State) : (setBlk b s).locked = s.locked := rfl
@[simp] theorem setBlk_err (b : Block) (s : State) : (setBlk b s).err = s.err := rfl
@[simp] theorem setBlk_decCount (b : Block) (s : State) : (setBlk b s).decCount = s.decCount := rfl
@[simp] theorem setBlk_frameLen (b : Block) (s : State) : (setBlk b s).frameLen = s.frameLen := rfl
@[simp] theorem setBlk_sigW (b : Block) (s : State) : (setBlk b s).sigW = s.sigW := rfl
@[simp] theorem setBlk_keyW (b : Block) (s : State) : (setBlk b s).keyW = s.keyW := rfl
@[simp] theorem setBlk_resTemp (b : Block) (s : State) : (setBlk b s).resTemp = s.resTemp := rfl
@[simp] theorem setBlk_resHum (b : Block) (s : State) : (setBlk b s).resHum = s.resHum := rfl
@[simp] theorem setBlk_resBatt (b : Block) (s : State) : (setBlk b s).resBatt = s.resBatt := rfl
@[simp] theorem setBlk_sig (b : Block) (s : State) : (setBlk b s).sig = s.sig := rfl
@[simp] theorem setBlk_key (b : Block) (s : State) : (setBlk b s).key = s.key := rfl
@[simp] theorem setBlk_blk (b : Block) (s : State) : (setBlk b s).blk = b := rfl
@[simp] theorem setBlk_frame (b : Block) (s : State) : (setBlk b s).frame = s.frame := rfl
@[simp] theorem setBlk_blkW (b : Block) (s : State) : (setBlk b s).blkW = BitVec.allOnes 16 := rfl
@[simp] theorem setBlk_frameW (b : Block) (s : State) : (setBlk b s).frameW = s.frameW := rfl
@[simp] theorem setBlk_program (b : Block) (s : State) : (setBlk b s).program = s.program := rfl
@[simp] theorem setBlk_reads (b : Block) (s : State) : (setBlk b s).reads = s.reads := rfl

/-! Fields after `setFrameLenHigh`. -/

@[simp] theorem setFrameLenHigh_status (d : Byte) (s : State) : (setFrameLenHigh d s).status = s.status := rfl
@[simp] theorem setFrameLenHigh_verbose (d : Byte) (s : State) : (setFrameLenHigh d s).verbose = s.verbose := rfl
@[simp] theorem setFrameLenHigh_locked (d : Byte) (s : State) : (setFrameLenHigh d s).locked = s.locked := rfl
@[simp] theorem setFrameLenHigh_err (d : Byte) (s : State) : (setFrameLenHigh d s).err = s.err := rfl
@[simp] theorem setFrameLenHigh_decCount (d : Byte) (s : State) : (setFrameLenHigh d s).decCount = s.decCount := rfl
@[simp] theorem setFrameLenHigh_frameLen (d : Byte) (s : State) : (setFrameLenHigh d s).frameLen = be16 d (lowByte s.frameLen) := rfl
@[simp] theorem setFrameLenHigh_sigW (d : Byte) (s : State) : (setFrameLenHigh d s).sigW = s.sigW := rfl
@[simp] theorem setFrameLenHigh_keyW (d : Byte) (s : State) : (setFrameLenHigh d s).keyW = s.keyW := rfl
@[simp] theorem setFrameLenHigh_resTemp (d : Byte) (s : State) : (setFrameLenHigh d s).resTemp = s.resTemp := rfl
@[simp] theorem setFrameLenHigh_resHum (d : Byte) (s : State) : (setFrameLenHigh d s).resHum = s.resHum := rfl
@[simp] theorem setFrameLenHigh_resBatt (d : Byte) (s : State) : (setFrameLenHigh d s).resBatt = s.resBatt := rfl
@[simp] theorem setFrameLenHigh_sig (d : Byte) (s : State) : (setFrameLenHigh d s).sig = s.sig := rfl
@[simp] theorem setFrameLenHigh_key (d : Byte) (s : State) : (setFrameLenHigh d s).key = s.key := rfl
@[simp] theorem setFrameLenHigh_blk (d : Byte) (s : State) : (setFrameLenHigh d s).blk = s.blk := rfl
@[simp] theorem setFrameLenHigh_frame (d : Byte) (s : State) : (setFrameLenHigh d s).frame = s.frame := rfl
@[simp] theorem setFrameLenHigh_blkW (d : Byte) (s : State) : (setFrameLenHigh d s).blkW = s.blkW := rfl
@[simp] theorem setFrameLenHigh_frameW (d : Byte) (s : State) : (setFrameLenHigh d s).frameW = s.frameW := rfl
@[simp] theorem setFrameLenHigh_program (d : Byte) (s : State) : (setFrameLenHigh d s).program = s.program := rfl
@[simp] theorem setFrameLenHigh_reads (d : Byte) (s : State) : (setFrameLenHigh d s).reads = s.reads := rfl

/-! Fields after `setFrameLenLow`. -/

@[simp] theorem setFrameLenLow_status (d : Byte) (s : State) : (setFrameLenLow d s).status = s.status := rfl
@[simp] theorem setFrameLenLow_verbose (d : Byte) (s : State) : (setFrameLenLow d s).verbose = s.verbose := rfl
@[simp] theorem setFrameLenLow_locked (d : Byte) (s : State) : (setFrameLenLow d s).locked = s.locked := rfl
@[simp] theorem setFrameLenLow_err (d : Byte) (s : State) : (setFrameLenLow d s).err = s.err := rfl
@[simp] theorem setFrameLenLow_decCount (d : Byte) (s : State) : (setFrameLenLow d s).decCount = s.decCount := rfl
@[simp] theorem setFrameLenLow_frameLen (d : Byte) (s : State) : (setFrameLenLow d s).frameLen = be16 (highByte s.frameLen) d := rfl
@[simp] theorem setFrameLenLow_sigW (d : Byte) (s : State) : (setFrameLenLow d s).sigW = s.sigW := rfl
@[simp] theorem setFrameLenLow_keyW (d : Byte) (s : State) : (setFrameLenLow d s).keyW = s.keyW := rfl
@[simp] theorem setFrameLenLow_resTemp (d : Byte) (s : State) : (setFrameLenLow d s).resTemp = s.resTemp := rfl
@[simp] theorem setFrameLenLow_resHum (d : Byte) (s : State) : (setFrameLenLow d s).resHum = s.resHum := rfl
@[simp] theorem setFrameLenLow_resBatt (d : Byte) (s : State) : (setFrameLenLow d s).resBatt = s.resBatt := rfl
@[simp] theorem setFrameLenLow_sig (d : Byte) (s : State) : (setFrameLenLow d s).sig = s.sig := rfl
@[simp] theorem setFrameLenLow_key (d : Byte) (s : State) : (setFrameLenLow d s).key = s.key := rfl
@[simp] theorem setFrameLenLow_blk (d : Byte) (s : State) : (setFrameLenLow d s).blk = s.blk := rfl
@[simp] theorem setFrameLenLow_frame (d : Byte) (s : State) : (setFrameLenLow d s).frame = s.frame := rfl
@[simp] theorem setFrameLenLow_blkW (d : Byte) (s : State) : (setFrameLenLow d s).blkW = s.blkW := rfl
@[simp] theorem setFrameLenLow_frameW (d : Byte) (s : State) : (setFrameLenLow d s).frameW = s.frameW := rfl
@[simp] theorem setFrameLenLow_program (d : Byte) (s : State) : (setFrameLenLow d s).program = s.program := rfl
@[simp] theorem setFrameLenLow_reads (d : Byte) (s : State) : (setFrameLenLow d s).reads = s.reads := rfl

/-! Fields after `setVerbose`. -/

@[simp] theorem setVerbose_status (d : Byte) (s : State) : (setVerbose d s).status = s.status := rfl
@[simp] theorem setVerbose_verbose (d : Byte) (s : State) : (setVerbose d s).verbose = d.getLsbD 0 := rfl
@[simp] theorem setVerbose_locked (d : Byte) (s : State) : (setVerbose d s).locked = s.locked := rfl
@[simp] theorem setVerbose_err (d : Byte) (s : State) : (setVerbose d s).err = s.err := rfl
@[simp] theorem setVerbose_decCount (d : Byte) (s : State) : (setVerbose d s).decCount = s.decCount := rfl
@[simp] theorem setVerbose_frameLen (d : Byte) (s : State) : (setVerbose d s).frameLen = s.frameLen := rfl
@[simp] theorem setVerbose_sigW (d : Byte) (s : State) : (setVerbose d s).sigW = s.sigW := rfl
@[simp] theorem setVerbose_keyW (d : Byte) (s : State) : (setVerbose d s).keyW = s.keyW := rfl
@[simp] theorem setVerbose_resTemp (d : Byte) (s : State) : (setVerbose d s).resTemp = s.resTemp := rfl
@[simp] theorem setVerbose_resHum (d : Byte) (s : State) : (setVerbose d s).resHum = s.resHum := rfl
@[simp] theorem setVerbose_resBatt (d : Byte) (s : State) : (setVerbose d s).resBatt = s.resBatt := rfl
@[simp] theorem setVerbose_sig (d : Byte) (s : State) : (setVerbose d s).sig = s.sig := rfl
@[simp] theorem setVerbose_key (d : Byte) (s : State) : (setVerbose d s).key = s.key := rfl
@[simp] theorem setVerbose_blk (d : Byte) (s : State) : (setVerbose d s).blk = s.blk := rfl
@[simp] theorem setVerbose_frame (d : Byte) (s : State) : (setVerbose d s).frame = s.frame := rfl
@[simp] theorem setVerbose_blkW (d : Byte) (s : State) : (setVerbose d s).blkW = s.blkW := rfl
@[simp] theorem setVerbose_frameW (d : Byte) (s : State) : (setVerbose d s).frameW = s.frameW := rfl
@[simp] theorem setVerbose_program (d : Byte) (s : State) : (setVerbose d s).program = s.program := rfl
@[simp] theorem setVerbose_reads (d : Byte) (s : State) : (setVerbose d s).reads = s.reads := rfl

/-! Fields after `setLocked`. -/

@[simp] theorem setLocked_status (s : State) : (setLocked s).status = s.status := rfl
@[simp] theorem setLocked_verbose (s : State) : (setLocked s).verbose = s.verbose := rfl
@[simp] theorem setLocked_locked (s : State) : (setLocked s).locked = true := rfl
@[simp] theorem setLocked_err (s : State) : (setLocked s).err = s.err := rfl
@[simp] theorem setLocked_decCount (s : State) : (setLocked s).decCount = s.decCount := rfl
@[simp] theorem setLocked_frameLen (s : State) : (setLocked s).frameLen = s.frameLen := rfl
@[simp] theorem setLocked_sigW (s : State) : (setLocked s).sigW = s.sigW := rfl
@[simp] theorem setLocked_keyW (s : State) : (setLocked s).keyW = s.keyW := rfl
@[simp] theorem setLocked_resTemp (s : State) : (setLocked s).resTemp = s.resTemp := rfl
@[simp] theorem setLocked_resHum (s : State) : (setLocked s).resHum = s.resHum := rfl
@[simp] theorem setLocked_resBatt (s : State) : (setLocked s).resBatt = s.resBatt := rfl
@[simp] theorem setLocked_sig (s : State) : (setLocked s).sig = s.sig := rfl
@[simp] theorem setLocked_key (s : State) : (setLocked s).key = s.key := rfl
@[simp] theorem setLocked_blk (s : State) : (setLocked s).blk = s.blk := rfl
@[simp] theorem setLocked_frame (s : State) : (setLocked s).frame = s.frame := rfl
@[simp] theorem setLocked_blkW (s : State) : (setLocked s).blkW = s.blkW := rfl
@[simp] theorem setLocked_frameW (s : State) : (setLocked s).frameW = s.frameW := rfl
@[simp] theorem setLocked_program (s : State) : (setLocked s).program = s.program := rfl
@[simp] theorem setLocked_reads (s : State) : (setLocked s).reads = s.reads := rfl

/-! Fields after `countDecryption`. -/

@[simp] theorem countDecryption_status (s : State) : (countDecryption s).status = s.status := rfl
@[simp] theorem countDecryption_verbose (s : State) : (countDecryption s).verbose = s.verbose := rfl
@[simp] theorem countDecryption_locked (s : State) : (countDecryption s).locked = s.locked := rfl
@[simp] theorem countDecryption_err (s : State) : (countDecryption s).err = s.err := rfl
@[simp] theorem countDecryption_decCount (s : State) : (countDecryption s).decCount = s.decCount + 1#8 := rfl
@[simp] theorem countDecryption_frameLen (s : State) : (countDecryption s).frameLen = s.frameLen := rfl
@[simp] theorem countDecryption_sigW (s : State) : (countDecryption s).sigW = s.sigW := rfl
@[simp] theorem countDecryption_keyW (s : State) : (countDecryption s).keyW = s.keyW := rfl
@[simp] theorem countDecryption_resTemp (s : State) : (countDecryption s).resTemp = s.resTemp := rfl
@[simp] theorem countDecryption_resHum (s : State) : (countDecryption s).resHum = s.resHum := rfl
@[simp] theorem countDecryption_resBatt (s : State) : (countDecryption s).resBatt = s.resBatt := rfl
@[simp] theorem countDecryption_sig (s : State) : (countDecryption s).sig = s.sig := rfl
@[simp] theorem countDecryption_key (s : State) : (countDecryption s).key = s.key := rfl
@[simp] theorem countDecryption_blk (s : State) : (countDecryption s).blk = s.blk := rfl
@[simp] theorem countDecryption_frame (s : State) : (countDecryption s).frame = s.frame := rfl
@[simp] theorem countDecryption_blkW (s : State) : (countDecryption s).blkW = s.blkW := rfl
@[simp] theorem countDecryption_frameW (s : State) : (countDecryption s).frameW = s.frameW := rfl
@[simp] theorem countDecryption_program (s : State) : (countDecryption s).program = s.program := rfl
@[simp] theorem countDecryption_reads (s : State) : (countDecryption s).reads = s.reads := rfl

/-! Fields after `setRecord`. -/

@[simp] theorem setRecord_status (t h : HalfWord) (b : Byte) (s : State) : (setRecord t h b s).status = s.status := rfl
@[simp] theorem setRecord_verbose (t h : HalfWord) (b : Byte) (s : State) : (setRecord t h b s).verbose = s.verbose := rfl
@[simp] theorem setRecord_locked (t h : HalfWord) (b : Byte) (s : State) : (setRecord t h b s).locked = s.locked := rfl
@[simp] theorem setRecord_err (t h : HalfWord) (b : Byte) (s : State) : (setRecord t h b s).err = s.err := rfl
@[simp] theorem setRecord_decCount (t h : HalfWord) (b : Byte) (s : State) : (setRecord t h b s).decCount = s.decCount := rfl
@[simp] theorem setRecord_frameLen (t h : HalfWord) (b : Byte) (s : State) : (setRecord t h b s).frameLen = s.frameLen := rfl
@[simp] theorem setRecord_sigW (t h : HalfWord) (b : Byte) (s : State) : (setRecord t h b s).sigW = s.sigW := rfl
@[simp] theorem setRecord_keyW (t h : HalfWord) (b : Byte) (s : State) : (setRecord t h b s).keyW = s.keyW := rfl
@[simp] theorem setRecord_resTemp (t h : HalfWord) (b : Byte) (s : State) : (setRecord t h b s).resTemp = t := rfl
@[simp] theorem setRecord_resHum (t h : HalfWord) (b : Byte) (s : State) : (setRecord t h b s).resHum = h := rfl
@[simp] theorem setRecord_resBatt (t h : HalfWord) (b : Byte) (s : State) : (setRecord t h b s).resBatt = b := rfl
@[simp] theorem setRecord_sig (t h : HalfWord) (b : Byte) (s : State) : (setRecord t h b s).sig = s.sig := rfl
@[simp] theorem setRecord_key (t h : HalfWord) (b : Byte) (s : State) : (setRecord t h b s).key = s.key := rfl
@[simp] theorem setRecord_blk (t h : HalfWord) (b : Byte) (s : State) : (setRecord t h b s).blk = s.blk := rfl
@[simp] theorem setRecord_frame (t h : HalfWord) (b : Byte) (s : State) : (setRecord t h b s).frame = s.frame := rfl
@[simp] theorem setRecord_blkW (t h : HalfWord) (b : Byte) (s : State) : (setRecord t h b s).blkW = s.blkW := rfl
@[simp] theorem setRecord_frameW (t h : HalfWord) (b : Byte) (s : State) : (setRecord t h b s).frameW = s.frameW := rfl
@[simp] theorem setRecord_program (t h : HalfWord) (b : Byte) (s : State) : (setRecord t h b s).program = s.program := rfl
@[simp] theorem setRecord_reads (t h : HalfWord) (b : Byte) (s : State) : (setRecord t h b s).reads = s.reads := rfl

/-! Fields after `clearResult`. -/

@[simp] theorem clearResult_status (s : State) : (clearResult s).status = 0x00#8 := rfl
@[simp] theorem clearResult_verbose (s : State) : (clearResult s).verbose = s.verbose := rfl
@[simp] theorem clearResult_locked (s : State) : (clearResult s).locked = s.locked := rfl
@[simp] theorem clearResult_err (s : State) : (clearResult s).err = s.err := rfl
@[simp] theorem clearResult_decCount (s : State) : (clearResult s).decCount = s.decCount := rfl
@[simp] theorem clearResult_frameLen (s : State) : (clearResult s).frameLen = 0x0000#16 := rfl
@[simp] theorem clearResult_sigW (s : State) : (clearResult s).sigW = s.sigW := rfl
@[simp] theorem clearResult_keyW (s : State) : (clearResult s).keyW = s.keyW := rfl
@[simp] theorem clearResult_resTemp (s : State) : (clearResult s).resTemp = 0x0000#16 := rfl
@[simp] theorem clearResult_resHum (s : State) : (clearResult s).resHum = 0x0000#16 := rfl
@[simp] theorem clearResult_resBatt (s : State) : (clearResult s).resBatt = 0x00#8 := rfl
@[simp] theorem clearResult_sig (s : State) : (clearResult s).sig = s.sig := rfl
@[simp] theorem clearResult_key (s : State) : (clearResult s).key = s.key := rfl
@[simp] theorem clearResult_blk (s : State) : (clearResult s).blk = Vector.replicate 16 0x00#8 := rfl
@[simp] theorem clearResult_frame (s : State) : (clearResult s).frame = s.frame := rfl
@[simp] theorem clearResult_blkW (s : State) : (clearResult s).blkW = BitVec.allOnes 16 := rfl
@[simp] theorem clearResult_frameW (s : State) : (clearResult s).frameW = s.frameW := rfl
@[simp] theorem clearResult_program (s : State) : (clearResult s).program = s.program := rfl
@[simp] theorem clearResult_reads (s : State) : (clearResult s).reads = s.reads := rfl

/-! Fields after `recordRead`. -/

@[simp] theorem recordRead_status (v : Byte) (s : State) : (recordRead v s).status = s.status := rfl
@[simp] theorem recordRead_verbose (v : Byte) (s : State) : (recordRead v s).verbose = s.verbose := rfl
@[simp] theorem recordRead_locked (v : Byte) (s : State) : (recordRead v s).locked = s.locked := rfl
@[simp] theorem recordRead_err (v : Byte) (s : State) : (recordRead v s).err = s.err := rfl
@[simp] theorem recordRead_decCount (v : Byte) (s : State) : (recordRead v s).decCount = s.decCount := rfl
@[simp] theorem recordRead_frameLen (v : Byte) (s : State) : (recordRead v s).frameLen = s.frameLen := rfl
@[simp] theorem recordRead_sigW (v : Byte) (s : State) : (recordRead v s).sigW = s.sigW := rfl
@[simp] theorem recordRead_keyW (v : Byte) (s : State) : (recordRead v s).keyW = s.keyW := rfl
@[simp] theorem recordRead_resTemp (v : Byte) (s : State) : (recordRead v s).resTemp = s.resTemp := rfl
@[simp] theorem recordRead_resHum (v : Byte) (s : State) : (recordRead v s).resHum = s.resHum := rfl
@[simp] theorem recordRead_resBatt (v : Byte) (s : State) : (recordRead v s).resBatt = s.resBatt := rfl
@[simp] theorem recordRead_sig (v : Byte) (s : State) : (recordRead v s).sig = s.sig := rfl
@[simp] theorem recordRead_key (v : Byte) (s : State) : (recordRead v s).key = s.key := rfl
@[simp] theorem recordRead_blk (v : Byte) (s : State) : (recordRead v s).blk = s.blk := rfl
@[simp] theorem recordRead_frame (v : Byte) (s : State) : (recordRead v s).frame = s.frame := rfl
@[simp] theorem recordRead_blkW (v : Byte) (s : State) : (recordRead v s).blkW = s.blkW := rfl
@[simp] theorem recordRead_frameW (v : Byte) (s : State) : (recordRead v s).frameW = s.frameW := rfl
@[simp] theorem recordRead_program (v : Byte) (s : State) : (recordRead v s).program = s.program := rfl
@[simp] theorem recordRead_reads (v : Byte) (s : State) : (recordRead v s).reads = s.reads ++ [v] := rfl

/-! Fields after `withProgram`. -/

@[simp] theorem withProgram_status (p : List HostEvent) (s : State) : (withProgram p s).status = s.status := rfl
@[simp] theorem withProgram_verbose (p : List HostEvent) (s : State) : (withProgram p s).verbose = s.verbose := rfl
@[simp] theorem withProgram_locked (p : List HostEvent) (s : State) : (withProgram p s).locked = s.locked := rfl
@[simp] theorem withProgram_err (p : List HostEvent) (s : State) : (withProgram p s).err = s.err := rfl
@[simp] theorem withProgram_decCount (p : List HostEvent) (s : State) : (withProgram p s).decCount = s.decCount := rfl
@[simp] theorem withProgram_frameLen (p : List HostEvent) (s : State) : (withProgram p s).frameLen = s.frameLen := rfl
@[simp] theorem withProgram_sigW (p : List HostEvent) (s : State) : (withProgram p s).sigW = s.sigW := rfl
@[simp] theorem withProgram_keyW (p : List HostEvent) (s : State) : (withProgram p s).keyW = s.keyW := rfl
@[simp] theorem withProgram_resTemp (p : List HostEvent) (s : State) : (withProgram p s).resTemp = s.resTemp := rfl
@[simp] theorem withProgram_resHum (p : List HostEvent) (s : State) : (withProgram p s).resHum = s.resHum := rfl
@[simp] theorem withProgram_resBatt (p : List HostEvent) (s : State) : (withProgram p s).resBatt = s.resBatt := rfl
@[simp] theorem withProgram_sig (p : List HostEvent) (s : State) : (withProgram p s).sig = s.sig := rfl
@[simp] theorem withProgram_key (p : List HostEvent) (s : State) : (withProgram p s).key = s.key := rfl
@[simp] theorem withProgram_blk (p : List HostEvent) (s : State) : (withProgram p s).blk = s.blk := rfl
@[simp] theorem withProgram_frame (p : List HostEvent) (s : State) : (withProgram p s).frame = s.frame := rfl
@[simp] theorem withProgram_blkW (p : List HostEvent) (s : State) : (withProgram p s).blkW = s.blkW := rfl
@[simp] theorem withProgram_frameW (p : List HostEvent) (s : State) : (withProgram p s).frameW = s.frameW := rfl
@[simp] theorem withProgram_program (p : List HostEvent) (s : State) : (withProgram p s).program = p := rfl
@[simp] theorem withProgram_reads (p : List HostEvent) (s : State) : (withProgram p s).reads = s.reads := rfl

/-! Fields after `completeInvCipher`. -/

@[simp] theorem completeInvCipher_status (y : Block) (s : State) : (completeInvCipher y s).status = s.status := rfl
@[simp] theorem completeInvCipher_verbose (y : Block) (s : State) : (completeInvCipher y s).verbose = s.verbose := rfl
@[simp] theorem completeInvCipher_locked (y : Block) (s : State) : (completeInvCipher y s).locked = s.locked := rfl
@[simp] theorem completeInvCipher_err (y : Block) (s : State) : (completeInvCipher y s).err = s.err := rfl
@[simp] theorem completeInvCipher_decCount (y : Block) (s : State) : (completeInvCipher y s).decCount = s.decCount + 1#8 := rfl
@[simp] theorem completeInvCipher_frameLen (y : Block) (s : State) : (completeInvCipher y s).frameLen = s.frameLen := rfl
@[simp] theorem completeInvCipher_sigW (y : Block) (s : State) : (completeInvCipher y s).sigW = s.sigW := rfl
@[simp] theorem completeInvCipher_keyW (y : Block) (s : State) : (completeInvCipher y s).keyW = s.keyW := rfl
@[simp] theorem completeInvCipher_resTemp (y : Block) (s : State) : (completeInvCipher y s).resTemp = s.resTemp := rfl
@[simp] theorem completeInvCipher_resHum (y : Block) (s : State) : (completeInvCipher y s).resHum = s.resHum := rfl
@[simp] theorem completeInvCipher_resBatt (y : Block) (s : State) : (completeInvCipher y s).resBatt = s.resBatt := rfl
@[simp] theorem completeInvCipher_sig (y : Block) (s : State) : (completeInvCipher y s).sig = s.sig := rfl
@[simp] theorem completeInvCipher_key (y : Block) (s : State) : (completeInvCipher y s).key = s.key := rfl
@[simp] theorem completeInvCipher_blk (y : Block) (s : State) : (completeInvCipher y s).blk = Aes.invCipher s.key y := rfl
@[simp] theorem completeInvCipher_frame (y : Block) (s : State) : (completeInvCipher y s).frame = s.frame := rfl
@[simp] theorem completeInvCipher_blkW (y : Block) (s : State) : (completeInvCipher y s).blkW = BitVec.allOnes 16 := rfl
@[simp] theorem completeInvCipher_frameW (y : Block) (s : State) : (completeInvCipher y s).frameW = s.frameW := rfl
@[simp] theorem completeInvCipher_program (y : Block) (s : State) : (completeInvCipher y s).program = s.program := rfl
@[simp] theorem completeInvCipher_reads (y : Block) (s : State) : (completeInvCipher y s).reads = s.reads := rfl

/-! Fields after `storeRecord`. -/

@[simp] theorem storeRecord_status (r : TelemetryRecord) (s : State) : (storeRecord r s).status = s.status := rfl
@[simp] theorem storeRecord_verbose (r : TelemetryRecord) (s : State) : (storeRecord r s).verbose = s.verbose := rfl
@[simp] theorem storeRecord_locked (r : TelemetryRecord) (s : State) : (storeRecord r s).locked = s.locked := rfl
@[simp] theorem storeRecord_err (r : TelemetryRecord) (s : State) : (storeRecord r s).err = s.err := rfl
@[simp] theorem storeRecord_decCount (r : TelemetryRecord) (s : State) : (storeRecord r s).decCount = s.decCount := rfl
@[simp] theorem storeRecord_frameLen (r : TelemetryRecord) (s : State) : (storeRecord r s).frameLen = s.frameLen := rfl
@[simp] theorem storeRecord_sigW (r : TelemetryRecord) (s : State) : (storeRecord r s).sigW = s.sigW := rfl
@[simp] theorem storeRecord_keyW (r : TelemetryRecord) (s : State) : (storeRecord r s).keyW = s.keyW := rfl
@[simp] theorem storeRecord_resTemp (r : TelemetryRecord) (s : State) : (storeRecord r s).resTemp = r.temperature := rfl
@[simp] theorem storeRecord_resHum (r : TelemetryRecord) (s : State) : (storeRecord r s).resHum = r.humidity := rfl
@[simp] theorem storeRecord_resBatt (r : TelemetryRecord) (s : State) : (storeRecord r s).resBatt = r.battery := rfl
@[simp] theorem storeRecord_sig (r : TelemetryRecord) (s : State) : (storeRecord r s).sig = s.sig := rfl
@[simp] theorem storeRecord_key (r : TelemetryRecord) (s : State) : (storeRecord r s).key = s.key := rfl
@[simp] theorem storeRecord_blk (r : TelemetryRecord) (s : State) : (storeRecord r s).blk = s.blk := rfl
@[simp] theorem storeRecord_frame (r : TelemetryRecord) (s : State) : (storeRecord r s).frame = s.frame := rfl
@[simp] theorem storeRecord_blkW (r : TelemetryRecord) (s : State) : (storeRecord r s).blkW = s.blkW := rfl
@[simp] theorem storeRecord_frameW (r : TelemetryRecord) (s : State) : (storeRecord r s).frameW = s.frameW := rfl
@[simp] theorem storeRecord_program (r : TelemetryRecord) (s : State) : (storeRecord r s).program = s.program := rfl
@[simp] theorem storeRecord_reads (r : TelemetryRecord) (s : State) : (storeRecord r s).reads = s.reads := rfl

/-! Fields after `resetBlock`. -/

@[simp] theorem resetBlock_status (s : State) : (resetBlock s).status = 0x00#8 := rfl
@[simp] theorem resetBlock_verbose (s : State) : (resetBlock s).verbose = false := rfl
@[simp] theorem resetBlock_locked (s : State) : (resetBlock s).locked = false := rfl
@[simp] theorem resetBlock_err (s : State) : (resetBlock s).err = 0x00#8 := rfl
@[simp] theorem resetBlock_decCount (s : State) : (resetBlock s).decCount = 0x00#8 := rfl
@[simp] theorem resetBlock_frameLen (s : State) : (resetBlock s).frameLen = 0x0000#16 := rfl
@[simp] theorem resetBlock_sigW (s : State) : (resetBlock s).sigW = 0#6 := rfl
@[simp] theorem resetBlock_keyW (s : State) : (resetBlock s).keyW = 0#16 := rfl
@[simp] theorem resetBlock_resTemp (s : State) : (resetBlock s).resTemp = 0x0000#16 := rfl
@[simp] theorem resetBlock_resHum (s : State) : (resetBlock s).resHum = 0x0000#16 := rfl
@[simp] theorem resetBlock_resBatt (s : State) : (resetBlock s).resBatt = 0x00#8 := rfl
@[simp] theorem resetBlock_sig (s : State) : (resetBlock s).sig = Vector.replicate 6 0x00#8 := rfl
@[simp] theorem resetBlock_key (s : State) : (resetBlock s).key = Vector.replicate 16 0x00#8 := rfl
@[simp] theorem resetBlock_blk (s : State) : (resetBlock s).blk = Vector.replicate 16 0x00#8 := rfl
@[simp] theorem resetBlock_frame (s : State) : (resetBlock s).frame = Vector.replicate 24 0x00#8 := rfl
@[simp] theorem resetBlock_blkW (s : State) : (resetBlock s).blkW = 0#16 := rfl
@[simp] theorem resetBlock_frameW (s : State) : (resetBlock s).frameW = 0#24 := rfl
@[simp] theorem resetBlock_program (s : State) : (resetBlock s).program = s.program := rfl
@[simp] theorem resetBlock_reads (s : State) : (resetBlock s).reads = s.reads := rfl

/-- A state placed for one instruction differs in its program alone. -/
@[simp] theorem withFetchWord_eq (s : State) (nbits w : Nat) :
    s.withFetchWord nbits w = withProgram [.transaction (tableItem nbits w)] s := rfl

end Sys2Proof.Machine
end

