-- ==== Sys2Proof/Laws/Commands.lean ====
section
/-! SUPPORT. Once for each shared operation and each command: everything it can do when it answers a next state. -/

namespace Sys2Proof.Machine

/-! What `finish` writes for each outcome the commands end with: the STATUS byte of `95_test_vectors.md`. -/

/-- OK from LOCK or ENCRYPT. -/
theorem finish_ok_plain (s : State) : finish .ok false false false s = { s with status := 0x01#8 } := by
  simp only [finish, emitPolicy]
  rfl

/-- OK from FILTER. -/
theorem finish_ok_filter (s : State) : finish .ok true false false s = { s with status := 0x11#8 } := by
  simp only [finish, emitPolicy]
  rfl

/-- OK from DECRYPT. -/
theorem finish_ok_decrypt (s : State) : finish .ok false true false s = { s with status := 0x21#8 } := by
  simp only [finish, emitPolicy]
  rfl

/-- OK from EXTRACT. -/
theorem finish_ok_extract (s : State) : finish .ok false false true s = { s with status := 0xC1#8 } := by
  simp only [finish, emitPolicy]
  rfl

/-- OK from DECODE. -/
theorem finish_ok_decode (s : State) : finish .ok false true true s = { s with status := 0xE1#8 } := by
  simp only [finish, emitPolicy]
  rfl

/-- OK from PROCESS. -/
theorem finish_ok_process (s : State) : finish .ok true true true s = { s with status := 0xF1#8 } := by
  simp only [finish, emitPolicy]
  rfl

/-- DECRYPTION_FAILED. -/
theorem finish_decryptionFailed (s : State) : finish .decryptionFailed false false false s = { s with status := 0x45#8 } := by
  simp only [finish, emitPolicy]
  rfl

/-- DECRYPTION_FAILED after the comparison, which PROCESS cannot reach while locked. -/
theorem finish_decryptionFailed_process (s : State) : finish .decryptionFailed true false false s = { s with status := 0x55#8 } := by
  simp only [finish, emitPolicy]
  rfl

/-- NOT_CONFIGURED. -/
theorem finish_notConfigured (s : State) : finish .notConfigured false false false s = { s with status := 0x47#8 } := by
  simp only [finish, emitPolicy]
  rfl

/-- BAD_COMMAND. -/
theorem finish_badCommand (s : State) : finish .badCommand false false false s = { s with status := 0x48#8 } := by
  simp only [finish, emitPolicy]
  rfl

/-- A structural rejection is emitted only when verbose (R189). -/
theorem finish_tooShort (s : State) :
    finish .tooShort false false false s = { s with status := if s.verbose then 0x42#8 else 0x02#8 } := by
  simp only [finish, emitPolicy]
  cases s.verbose <;> rfl

/-- A structural rejection is emitted only when verbose (R189). -/
theorem finish_signatureMismatch (s : State) :
    finish .signatureMismatch true false false s = { s with status := if s.verbose then 0x53#8 else 0x13#8 } := by
  simp only [finish, emitPolicy]
  cases s.verbose <;> rfl

/-- A structural rejection is emitted only when verbose (R189). -/
theorem finish_badCiphertextLength (s : State) :
    finish .badCiphertextLength true false false s = { s with status := if s.verbose then 0x54#8 else 0x14#8 } := by
  simp only [finish, emitPolicy]
  cases s.verbose <;> rfl

/-- All that `FilterFn` can answer, with what it has read by then (R110 to R115). -/
theorem filterFn_eq_ok {s : State} {v : FilterVerdict} (h : filterFn s = .ok v) :
    (v = .tooShort ∧ s.frameLen.toNat < 22) ∨
    (22 ≤ s.frameLen.toNat ∧ AllWritten s.frameW 2 6 ∧ AllWritten s.sigW 0 6 ∧
      ((v = .signatureMismatch ∧ candidateOf s.frame ≠ s.sig) ∨
       (v = .badCiphertextLength ∧ candidateOf s.frame = s.sig ∧ s.frameLen.toNat ≠ 24) ∨
       (v = .accepted (ciphertextOf s.frame) ∧ candidateOf s.frame = s.sig ∧ s.frameLen.toNat = 24 ∧
         AllWritten s.frameW 8 16))) := by
  unfold filterFn at h
  split at h
  · rename_i hl
    exact .inl ⟨(Except.ok.inj h).symm, hl⟩
  rename_i hl
  have hl : 22 ≤ s.frameLen.toNat := Nat.le_of_not_lt hl
  split at h
  · cases h
  rename_i cand hc
  obtain ⟨rfl, hw⟩ := readRange_eq_ok hc
  split at h
  · cases h
  rename_i sg hs
  obtain ⟨rfl, hsw⟩ := readRange_eq_ok hs
  refine .inr ⟨hl, hw, hsw, ?_⟩
  split at h
  · rename_i hne
    exact .inl ⟨(Except.ok.inj h).symm, hne⟩
  rename_i heq
  have heq := not_not.1 heq
  split at h
  · rename_i hlen
    simp only [Config.ctOff, Config.ctLen] at hlen
    exact .inr (.inl ⟨(Except.ok.inj h).symm, heq, by omega⟩)
  rename_i hlen
  simp only [Config.ctOff, Config.ctLen] at hlen
  split at h
  · cases h
  rename_i ct hct
  obtain ⟨rfl, hcw⟩ := readRange_eq_ok hct
  exact .inr (.inr ⟨(Except.ok.inj h).symm, heq, by omega, hcw⟩)

/-- `FilterFn` on a frame that is too short reads nothing (R112). -/
theorem filterFn_of_short {s : State} (h : s.frameLen.toNat < 22) : filterFn s = .ok .tooShort := by
  simp [filterFn, Config.minLen, h]

/-- `FilterFn` stops at the first unwritten byte of the candidate signature (R113). -/
theorem filterFn_of_frameHole {s : State} {k : Nat} (h : 22 ≤ s.frameLen.toNat) (hk : FirstHole s.frameW 2 6 k) :
    filterFn s = .error (.unwrittenRead .frame k) := by
  have hc : readCandidate s = .error (.unwrittenRead .frame k) := readRange_of_firstHole hk
  simp [filterFn, Config.minLen, hc, Nat.not_lt.2 h]

/-- `FilterFn` stops at the first unwritten byte of SIG (R113). -/
theorem filterFn_of_sigHole {s : State} {k : Nat} (h : 22 ≤ s.frameLen.toNat) (hw : AllWritten s.frameW 2 6)
    (hk : FirstHole s.sigW 0 6 k) : filterFn s = .error (.unwrittenRead .sig k) := by
  have hc : readCandidate s = .ok (candidateOf s.frame) := readRange_of_allWritten hw
  have hs : readSignature s = .error (.unwrittenRead .sig k) := readRange_of_firstHole hk
  simp [filterFn, Config.minLen, hc, hs, Nat.not_lt.2 h]

/-- `FilterFn` once the signatures are read (R113 to R115). -/
theorem filterFn_of_signatures {s : State} (h : 22 ≤ s.frameLen.toNat) (hw : AllWritten s.frameW 2 6)
    (hs : AllWritten s.sigW 0 6) :
    filterFn s = if candidateOf s.frame ≠ s.sig then .ok .signatureMismatch
      else if s.frameLen.toNat ≠ 24 then .ok .badCiphertextLength else (readCiphertext s).map .accepted := by
  have hc : readCandidate s = .ok (candidateOf s.frame) := readRange_of_allWritten hw
  have hg : readSignature s = .ok s.sig := readRange_of_allWritten hs
  have hlen : s.frameLen.toNat - Config.ctOff ≠ Config.ctLen ↔ s.frameLen.toNat ≠ 24 := by
    simp [Config.ctOff, Config.ctLen]
    omega
  simp only [filterFn, Config.minLen, hc, hg, Nat.not_lt.2 h, if_false, hlen]
  split
  · rfl
  split
  · rfl
  cases readCiphertext s <;> rfl

/-- FILTER (R116). -/
theorem execFilter_next {s t : State} (h : execFilter s = .next t) :
    (s.locked = false ∧ t = finish .notConfigured false false false s) ∨
    (s.locked = true ∧ ∃ v, filterFn s = .ok v ∧
      t = finish (verdictCode v) (verdictSigcmp v) false false (storeAccepted v s)) := by
  unfold execFilter at h
  cases hl : s.locked <;> simp only [hl, Bool.not_true, Bool.not_false, if_true, Bool.false_eq_true, if_false] at h
  · exact .inl ⟨rfl, (Host.Outcome.next.inj h).symm⟩
  · split at h
    · cases h
    · rename_i v hv
      exact .inr ⟨rfl, v, hv, (Host.Outcome.next.inj h).symm⟩

theorem keyComplete_eq_true {s : State} : keyComplete s = true ↔ s.keyW = 0xFFFF#16 := by simp [keyComplete]

theorem keyComplete_eq_false {s : State} : keyComplete s = false ↔ s.keyW ≠ 0xFFFF#16 := by simp [keyComplete]

/-- DECRYPT (R150). -/
theorem execDecrypt_next {s t : State} (h : execDecrypt s = .next t) :
    (keyComplete s = false ∧ t = finish .decryptionFailed false false false s) ∨
    (keyComplete s = true ∧ AllWritten s.blkW 0 16 ∧
      t = finish .ok false true false (completeInvCipher s.blk s)) := by
  unfold execDecrypt at h
  cases hk : keyComplete s <;> simp only [hk, Bool.not_true, Bool.not_false, if_true, Bool.false_eq_true, if_false] at h
  · exact .inl ⟨rfl, (Host.Outcome.next.inj h).symm⟩
  · split at h
    · cases h
    · rename_i y hy
      obtain ⟨rfl, hw⟩ := readRange_eq_ok hy
      exact .inr ⟨rfl, hw, (Host.Outcome.next.inj h).symm⟩

/-- ENCRYPT (R151). -/
theorem execEncrypt_next {s t : State} (h : execEncrypt s = .next t) :
    (keyComplete s = false ∧ t = finish .notConfigured false false false s) ∨
    (keyComplete s = true ∧ AllWritten s.blkW 0 16 ∧
      t = finish .ok false false false (setBlk (Aes.cipher s.key s.blk) s)) := by
  unfold execEncrypt at h
  cases hk : keyComplete s <;> simp only [hk, Bool.not_true, Bool.not_false, if_true, Bool.false_eq_true, if_false] at h
  · exact .inl ⟨rfl, (Host.Outcome.next.inj h).symm⟩
  · split at h
    · cases h
    · rename_i y hy
      obtain ⟨rfl, hw⟩ := readRange_eq_ok hy
      exact .inr ⟨rfl, hw, (Host.Outcome.next.inj h).symm⟩

/-- The end of EXTRACT, DECODE and PROCESS (R187). -/
theorem extractAndFinish_next {sc dr : Bool} {s t : State} (h : extractAndFinish sc dr s = .next t) :
    AllWritten s.blkW 0 5 ∧ t = finish .ok sc dr true (storeRecord (recordOf s.blk) s) := by
  unfold extractAndFinish at h
  split at h
  · cases h
  · rename_i r hr
    obtain ⟨rfl, hw⟩ := readRange_eq_ok hr
    exact ⟨hw, (Host.Outcome.next.inj h).symm⟩

theorem extractAndFinish_of_allWritten {sc dr : Bool} {s : State} (h : AllWritten s.blkW 0 5) :
    extractAndFinish sc dr s = .next (finish .ok sc dr true (storeRecord (recordOf s.blk) s)) := by
  have hx : extractFn s = .ok (recordOf s.blk) := readRange_of_allWritten h
  simp [extractAndFinish, hx]

/-- After a completed inverse cipher every byte of BLK is written, so the extraction cannot stop. -/
theorem extractAndFinish_completeInvCipher (sc dr : Bool) (y : Block) (s : State) :
    extractAndFinish sc dr (completeInvCipher y s) =
      .next (finish .ok sc dr true (storeRecord (recordOf (Aes.invCipher s.key y)) (completeInvCipher y s))) :=
  extractAndFinish_of_allWritten (allWritten_allOnes (by decide))

/-- DECODE (R188). -/
theorem execDecode_next {s t : State} (h : execDecode s = .next t) :
    (keyComplete s = false ∧ t = finish .decryptionFailed false false false s) ∨
    (keyComplete s = true ∧ AllWritten s.blkW 0 16 ∧
      t = finish .ok false true true
        (storeRecord (recordOf (Aes.invCipher s.key s.blk)) (completeInvCipher s.blk s))) := by
  unfold execDecode at h
  cases hk : keyComplete s <;> simp only [hk, Bool.not_true, Bool.not_false, if_true, Bool.false_eq_true, if_false] at h
  · exact .inl ⟨rfl, (Host.Outcome.next.inj h).symm⟩
  · split at h
    · cases h
    · rename_i y hy
      obtain ⟨rfl, hw⟩ := readRange_eq_ok hy
      rw [extractAndFinish_completeInvCipher] at h
      exact .inr ⟨rfl, hw, (Host.Outcome.next.inj h).symm⟩

/-- PROCESS (R201). -/
theorem execProcess_next {s t : State} (h : execProcess s = .next t) :
    (s.locked = false ∧ t = finish .notConfigured false false false s) ∨
    (s.locked = true ∧ ∃ v, filterFn s = .ok v ∧
      (((∀ ct, v ≠ .accepted ct) ∧ t = finish (verdictCode v) (verdictSigcmp v) false false s) ∨
       ∃ ct, v = .accepted ct ∧
        ((keyComplete s = false ∧ t = finish .decryptionFailed true false false s) ∨
         (keyComplete s = true ∧
          t = finish .ok true true true
            (storeRecord (recordOf (Aes.invCipher s.key ct)) (completeInvCipher ct s)))))) := by
  unfold execProcess at h
  cases hl : s.locked <;> simp only [hl, Bool.not_true, Bool.not_false, if_true, Bool.false_eq_true, if_false] at h
  · exact .inl ⟨rfl, (Host.Outcome.next.inj h).symm⟩
  · refine .inr ⟨rfl, ?_⟩
    split at h
    · cases h
    · rename_i ct hv
      refine ⟨_, hv, .inr ⟨ct, rfl, ?_⟩⟩
      cases hk : keyComplete s <;>
        simp only [hk, Bool.not_true, Bool.not_false, if_true, Bool.false_eq_true, if_false] at h
      · exact .inl ⟨rfl, (Host.Outcome.next.inj h).symm⟩
      · rw [extractAndFinish_completeInvCipher] at h
        exact .inr ⟨rfl, (Host.Outcome.next.inj h).symm⟩
    · rename_i v hne hv
      exact ⟨v, hv, .inl ⟨fun ct he => hne ct he, (Host.Outcome.next.inj h).symm⟩⟩

/-- LOCK (R202). -/
theorem execLock_next {s t : State} (h : execLock s = .next t) :
    (s.locked = true ∧ t = finish .ok false false false s) ∨
    (s.locked = false ∧ s.sigW = 0x3F#6 ∧ s.keyW = 0xFFFF#16 ∧ t = finish .ok false false false (setLocked s)) ∨
    (s.locked = false ∧ ¬ (s.sigW = 0x3F#6 ∧ s.keyW = 0xFFFF#16) ∧
      t = finish .notConfigured false false false s) := by
  unfold execLock at h
  cases hl : s.locked <;> simp only [hl, if_true, Bool.false_eq_true, if_false] at h
  · refine .inr ?_
    split at h
    · rename_i hc
      simp only [sigComplete, keyComplete, Bool.and_eq_true, beq_iff_eq] at hc
      exact .inl ⟨rfl, hc.1, hc.2, (Host.Outcome.next.inj h).symm⟩
    · rename_i hc
      simp only [sigComplete, keyComplete, Bool.and_eq_true, beq_iff_eq] at hc
      exact .inr ⟨rfl, hc, (Host.Outcome.next.inj h).symm⟩
  · exact .inl ⟨rfl, (Host.Outcome.next.inj h).symm⟩

/-- A host read changes the host's record alone (R61). -/
theorem execHtxRd_next {a : Byte} {s t : State} (h : execHtxRd a s = .next t) :
    ∃ v, hostRead a s = .ok v ∧ t = recordRead v s := by
  unfold execHtxRd at h
  split at h
  · cases h
  · rename_i v hv
    exact ⟨v, hv, (Host.Outcome.next.inj h).symm⟩

/-- A host write is a command, a write of a register byte, or a bad access (R62). -/
theorem execHtxWr_next {a d : Byte} {s t : State} (h : execHtxWr a d s = .next t) :
    (regAt a = some .cmd ∧ execute d s = .next t) ∨
    (∃ r, regAt a = some r ∧ r ≠ .cmd ∧ t = writeReg r d s) ∨
    (regAt a = none ∧ t = setErr errBadAccess s) := by
  unfold execHtxWr hostWrite at h
  split at h
  · rename_i hr
    exact .inl ⟨hr, h⟩
  · rename_i r hne hr
    exact .inr (.inl ⟨r, hr, hne, (Host.Outcome.next.inj h).symm⟩)
  · rename_i hr
    exact .inr (.inr ⟨hr, (Host.Outcome.next.inj h).symm⟩)

end Sys2Proof.Machine
end

