-- ==== Sys2Proof/Laws/Decode.lean ====
section
/-! SUPPORT. Decoding and encoding as arithmetic on the number a word stands for, and the CMD8 rows as a table that a
single evaluation covers. -/

namespace Sys2Proof

theorem htxWord_lt (wr : BitVec 1) (addr data : Byte) : htxWord wr addr data < 2 ^ 24 := BitVec.isLt _

theorem htxWord_eq (wr : BitVec 1) (addr data : Byte) :
    htxWord wr addr data = 65536 * wr.toNat + 256 * addr.toNat + data.toNat := by
  have ha := addr.isLt
  have hd := data.isLt
  have hw := wr.isLt
  simp only [htxWord, BitVec.toNat_append, BitVec.toNat_ofNat]
  rw [← Nat.shiftLeft_add_eq_or_of_lt (by omega), ← Nat.shiftLeft_add_eq_or_of_lt (by omega),
    ← Nat.shiftLeft_add_eq_or_of_lt (by omega)]
  simp only [Nat.shiftLeft_eq]
  omega

theorem htxRsv_ofNat {w : Nat} (h : w < 2 ^ 24) : htxRsv (BitVec.ofNat 24 w) = BitVec.ofNat 7 (w / 2 ^ 17) := by
  apply BitVec.eq_of_toNat_eq
  simp [htxRsv, Nat.shiftRight_eq_div_pow]
  omega

theorem htxIsWrite_ofNat (w : Nat) : htxIsWrite (BitVec.ofNat 24 w) = decide (w / 2 ^ 16 % 2 = 1) := by
  simp only [htxIsWrite, BitVec.getLsbD_ofNat, Nat.testBit_eq_decide_div_mod_eq]
  simp

theorem htxAddr_ofNat {w : Nat} (h : w < 2 ^ 24) : htxAddr (BitVec.ofNat 24 w) = BitVec.ofNat 8 (w / 256) := by
  apply BitVec.eq_of_toNat_eq
  simp [htxAddr, Nat.shiftRight_eq_div_pow]
  omega

theorem htxData_ofNat {w : Nat} : htxData (BitVec.ofNat 24 w) = BitVec.ofNat 8 w := by
  apply BitVec.eq_of_toNat_eq
  simp [htxData]

/-- What a number of at most 24 bits decodes to, read off its fields (R91, R95). -/
theorem decodeHtx_eq {w : Nat} (h : w < 2 ^ 24) : decodeHtx w =
    if w / 2 ^ 17 = 0 then
      if w / 2 ^ 16 % 2 = 1 then .ok (.htxWr (BitVec.ofNat 8 (w / 256)) (BitVec.ofNat 8 w))
      else if w % 256 = 0 then .ok (.htxRd (BitVec.ofNat 8 (w / 256))) else .error .readWithData
    else .error .reservedBitsSet := by
  have hr : (htxRsv (BitVec.ofNat 24 w) != 0#7) = !decide (w / 2 ^ 17 = 0) := by
    rw [htxRsv_ofNat h, Bool.eq_iff_iff]
    simp only [bne_iff_ne, ne_eq, Bool.not_eq_true', decide_eq_false_iff_not, ← BitVec.toNat_inj, BitVec.toNat_ofNat]
    rw [Nat.mod_eq_of_lt (by omega)]
  have hd : (htxData (BitVec.ofNat 24 w) != 0#8) = !decide (w % 256 = 0) := by
    rw [htxData_ofNat, Bool.eq_iff_iff]
    simp only [bne_iff_ne, ne_eq, Bool.not_eq_true', decide_eq_false_iff_not, ← BitVec.toNat_inj, BitVec.toNat_ofNat]
  rw [decodeHtx, if_neg (Nat.not_le.2 h), decodeHtx24, hr, hd, htxIsWrite_ofNat, htxAddr_ofNat h, htxData_ofNat]
  by_cases h1 : w / 2 ^ 17 = 0 <;> by_cases h2 : w / 2 ^ 16 % 2 = 1 <;> by_cases h3 : w % 256 = 0 <;>
    simp only [h1, h2, h3, decide_true, decide_false, Bool.not_true, Bool.not_false, Bool.false_eq_true, if_true,
      if_false]

theorem decodeHtx_of_wide {w : Nat} (h : 2 ^ 24 ≤ w) : decodeHtx w = .error .wordTooWide := by
  rw [decodeHtx, if_pos h]

end Sys2Proof
end

