-- ==== Sys2Proof/Laws/HostAccess.lean ====
section
/-! SUPPORT. Host reads and writes once the address is resolved to its register byte. -/

namespace Sys2Proof.Machine

theorem hostRead_of_regAt {a : Byte} {r : Reg} {s : State} (h : regAt a = some r) : hostRead a s = readReg r s := by
  simp [hostRead, h]

theorem hostRead_of_unmapped {a : Byte} {s : State} (h : regAt a = none) : hostRead a s = .ok 0x00#8 := by
  simp [hostRead, h]

theorem execHtxRd_of_ok {a v : Byte} {s : State} (h : hostRead a s = .ok v) : execHtxRd a s = .next (recordRead v s) := by
  simp [execHtxRd, h]

theorem execHtxRd_of_error {a : Byte} {f : Fault} {s : State} (h : hostRead a s = .error f) :
    execHtxRd a s = .fault f := by
  simp [execHtxRd, h]

theorem execHtxWr_of_regAt {a d : Byte} {r : Reg} {s : State} (h : regAt a = some r) (hr : r ≠ .cmd) :
    execHtxWr a d s = .next (writeReg r d s) := by
  unfold execHtxWr hostWrite
  rw [h]
  cases r <;> first | rfl | exact absurd rfl hr

theorem execHtxWr_of_unmapped {a d : Byte} {s : State} (h : regAt a = none) :
    execHtxWr a d s = .next (setErr errBadAccess s) := by
  simp [execHtxWr, hostWrite, h]

theorem execHtxWr_cmd (d : Byte) (s : State) : execHtxWr 0x00#8 d s = execute d s := rfl

theorem readSigByte_eq (i : Fin 6) (s : State) :
    readSigByte i s = if s.sigW.getLsbD i then .ok s.sig[i] else .error (.unwrittenRead .sig i) :=
  readRange_one .sig s.sigW i s.sig[i]

theorem readBlkByte_eq (i : Fin 16) (s : State) :
    readBlkByte i s = if s.blkW.getLsbD i then .ok s.blk[i] else .error (.unwrittenRead .blk i) :=
  readRange_one .blk s.blkW i s.blk[i]

theorem readFrameByte_eq (i : Fin 24) (s : State) :
    readFrameByte i s = if s.frameW.getLsbD i then .ok s.frame[i] else .error (.unwrittenRead .frame i) :=
  readRange_one .frame s.frameW i s.frame[i]

end Sys2Proof.Machine
end

