-- ==== Sys2Proof/Laws/PerInstr.lean ====
section
/-! SUPPORT. Statements made for every instruction, one lemma per constructor: an instruction is written as a command byte
(R90) or as an HTX word whose RSV field is 0 and which fits in 24 bits (R91, R96). -/

namespace Sys2Proof.Laws.EncodingWidth

open Sys2Proof

/-- The item the instruction is written as is a command byte, or a number made of WR, ADDR and DATA alone. -/
def Statement (i : Instr) : Prop :=
  (∃ d : Byte, encode i = .cmd8 d) ∨
    ∃ wr addr data : Nat, wr < 2 ∧ addr < 256 ∧ data < 256 ∧ encode i = .htx (65536 * wr + 256 * addr + data)

theorem nop : Statement .nop := .inl ⟨_, rfl⟩
theorem filter : Statement .filter := .inl ⟨_, rfl⟩
theorem decrypt : Statement .decrypt := .inl ⟨_, rfl⟩
theorem encrypt : Statement .encrypt := .inl ⟨_, rfl⟩
theorem extract : Statement .extract := .inl ⟨_, rfl⟩
theorem decode : Statement .decode := .inl ⟨_, rfl⟩
theorem process : Statement .process := .inl ⟨_, rfl⟩
theorem lock : Statement .lock := .inl ⟨_, rfl⟩
theorem clear : Statement .clear := .inl ⟨_, rfl⟩
theorem reserved09 : Statement .reserved09 := .inl ⟨_, rfl⟩
theorem reserved0A (opc : Byte) : Statement (.reserved0A opc) := .inl ⟨_, rfl⟩
theorem reserved0C (opc : Byte) : Statement (.reserved0C opc) := .inl ⟨_, rfl⟩
theorem reserved10 (opc : Byte) : Statement (.reserved10 opc) := .inl ⟨_, rfl⟩
theorem reserved20 (opc : Byte) : Statement (.reserved20 opc) := .inl ⟨_, rfl⟩
theorem reserved40 (opc : Byte) : Statement (.reserved40 opc) := .inl ⟨_, rfl⟩
theorem reserved80 (opc : Byte) : Statement (.reserved80 opc) := .inl ⟨_, rfl⟩
theorem htxWr (addr data : Byte) : Statement (.htxWr addr data) :=
  .inr ⟨1, addr.toNat, data.toNat, by decide, addr.isLt, data.isLt, by simp [encode, htxWord_eq]⟩
theorem htxRd (addr : Byte) : Statement (.htxRd addr) :=
  .inr ⟨0, addr.toNat, 0, by decide, addr.isLt, by decide, by simp [encode, htxWord_eq]⟩

end Sys2Proof.Laws.EncodingWidth
end

