-- ==== Sys2Proof/Laws/Step.lean ====
section
/-! SUPPORT. What a step can do, and the legality of a program. -/

namespace Sys2Proof.Machine

theorem firstIllegal_eq_none_iff (p : List HostEvent) (pos : Nat) :
    firstIllegal p pos = none ↔ ∀ e ∈ p, EncodesEvent e := by
  induction p generalizing pos with
  | nil => simp [firstIllegal]
  | cons e rest ih =>
    cases e with
    | reset => simp [firstIllegal, ih, EncodesEvent]
    | transaction item =>
      simp only [firstIllegal]
      split
      · rename_i err he
        simp [EncodesEvent, he]
      · rename_i i hi
        simp [ih, EncodesEvent, hi]

/-- The fetch of a legal program, by its first event (R95, R235, R250). -/
theorem fetch_nil : fetch [] = .idle := rfl

theorem fetch_reset {rest : List HostEvent} (h : ∀ e ∈ rest, EncodesEvent e) :
    fetch (.reset :: rest) = .reset rest := by
  simp [fetch, (firstIllegal_eq_none_iff _ 0).2 (show ∀ e ∈ HostEvent.reset :: rest, EncodesEvent e by
    simpa [EncodesEvent] using h)]

theorem fetch_transaction {item : RawItem} {rest : List HostEvent} {i : Instr} (hi : decode item = .ok i)
    (h : ∀ e ∈ rest, EncodesEvent e) : fetch (.transaction item :: rest) = .run i rest := by
  simp [fetch, hi, (firstIllegal_eq_none_iff _ 0).2 (show ∀ e ∈ HostEvent.transaction item :: rest, EncodesEvent e by
    simpa [EncodesEvent, hi] using h)]

/-- Everything a step can do when it answers a next state. -/
theorem step_next {s t : State} (h : step s = .next t) :
    (∀ e ∈ s.program, EncodesEvent e) ∧
    ((s.program = [] ∧ t = s) ∨
     (∃ rest, s.program = .reset :: rest ∧ t = resetBlock (withProgram rest s)) ∨
     (∃ item rest i, s.program = .transaction item :: rest ∧ decode item = .ok i ∧
       exec i (withProgram rest s) = .next t)) := by
  have hlegal : ∀ e ∈ s.program, EncodesEvent e := by
    rw [← firstIllegal_eq_none_iff s.program 0]
    rcases hf : firstIllegal s.program 0 with _ | ⟨e, pos⟩
    · rfl
    · simp [step, fetch, hf] at h
  refine ⟨hlegal, ?_⟩
  rcases hp : s.program with _ | ⟨e, rest⟩
  · rw [step, hp, fetch_nil] at h
    exact .inl ⟨rfl, (Host.Outcome.next.inj h).symm⟩
  · rw [hp] at hlegal
    have hrest : ∀ e ∈ rest, EncodesEvent e := fun e he => hlegal e (List.mem_cons_of_mem _ he)
    cases e with
    | reset =>
      rw [step, hp, fetch_reset hrest] at h
      exact .inr (.inl ⟨rest, rfl, (Host.Outcome.next.inj h).symm⟩)
    | transaction item =>
      obtain ⟨i, hi⟩ := hlegal _ List.mem_cons_self
      rw [step, hp, fetch_transaction hi hrest] at h
      exact .inr (.inr ⟨item, rest, i, rfl, hi, h⟩)

end Sys2Proof.Machine
end

