-- ==== Sys2Proof/Tests/Slice0.lean ====
section
/-! SUPPORT. The model's own tests, with expected values from `spec/95_test_vectors.md` (the vector is named in each
docstring), and for each statement with hypotheses a theorem `witness_…` that meets them, at the ends of their ranges. -/

namespace Sys2Proof.Tests

open Sys2Proof Sys2Proof.Machine

/-! ## The spec's own data -/

/-- S, the device signature of Scenario A. -/
def sigS : Signature := #v[0x74#8, 0x68#8, 0x65#8, 0x72#8, 0x6D#8, 0x79#8]

/-- K, the document's key. -/
def keyK : Block :=
  #v[0xA2#8, 0x36#8, 0x3C#8, 0xC2#8, 0x07#8, 0x23#8, 0x48#8, 0x97#8, 0x92#8, 0x2A#8, 0xEA#8, 0x86#8, 0x96#8, 0x85#8,
    0x11#8, 0x5B#8]

/-- C, the ciphertext of Scenario A. -/
def ctC : Block :=
  #v[0x62#8, 0xCD#8, 0xB3#8, 0xAF#8, 0xBA#8, 0x39#8, 0xFF#8, 0x68#8, 0x0E#8, 0x27#8, 0xDB#8, 0x91#8, 0x16#8, 0xD9#8,
    0x75#8, 0x0E#8]

/-- P, the plaintext of Scenario A. -/
def ptP : Block :=
  #v[0x09#8, 0x9A#8, 0x17#8, 0x70#8, 0x5A#8, 0#8, 0#8, 0#8, 0#8, 0#8, 0#8, 0#8, 0#8, 0#8, 0#8, 0#8]

/-- Z, sixteen zero bytes. -/
def zeroBlock : Block := Vector.replicate 16 0#8

/-- A, the frame of Scenario A. -/
def frameA : FrameBytes :=
  #v[0xFF#8, 0xFF#8, 0x74#8, 0x68#8, 0x65#8, 0x72#8, 0x6D#8, 0x79#8] ++ ctC

/-- F, A from a foreign device. -/
def frameF : FrameBytes := frameA.set 7 0x78#8

/-- A block configured and not locked. -/
def configured : State := { State.reset with sig := sigS, sigW := 0x3F#6, key := keyK, keyW := 0xFFFF#16 }

/-- A block configured and locked, holding a frame of the given length with the given bytes written. -/
def holding (frame : FrameBytes) (len : HalfWord) (written : BitVec 24) : State :=
  { configured with locked := true, frame := frame, frameLen := len, frameW := written }

/-- Scenario A before PROCESS. -/
def scenarioA : State := holding frameA 24#16 0xFFFFFF#24

/-- A block with the whole key and the given BLK. -/
def withBlk (b : Block) (written : BitVec 16) : State := { configured with blk := b, blkW := written }

/-- The outcome is a next state with the given property. -/
def nextMeets (p : State → Bool) : StepOutcome → Bool
  | .next t => p t
  | .fault _ => false
  | .refused _ => false

/-- The outcome is the given fault. -/
def faultsWith (f : Fault) : StepOutcome → Bool
  | .fault g => f == g
  | .next _ => false
  | .refused _ => false

theorem next_of_meets {p : State → Bool} {o : StepOutcome} (h : nextMeets p o = true) :
    ∃ t, o = .next t ∧ p t = true := by
  cases o with
  | next t => exact ⟨t, rfl, h⟩
  | fault f => cases h
  | refused f => cases h

/-! ## Well-formedness: one ill-formed term below or above each range -/

theorem test_illFormed :
    (Instr.reserved0A 0x09#8).wellFormed = false ∧ (Instr.reserved0A 0x0C#8).wellFormed = false ∧
    (Instr.reserved0C 0x0B#8).wellFormed = false ∧ (Instr.reserved0C 0x10#8).wellFormed = false ∧
    (Instr.reserved10 0x0F#8).wellFormed = false ∧ (Instr.reserved10 0x20#8).wellFormed = false ∧
    (Instr.reserved20 0x1F#8).wellFormed = false ∧ (Instr.reserved20 0x40#8).wellFormed = false ∧
    (Instr.reserved40 0x3F#8).wellFormed = false ∧ (Instr.reserved40 0x80#8).wellFormed = false ∧
    (Instr.reserved80 0x7F#8).wellFormed = false := by decide

/-! ## Decoding: every constructor's word, written out from R91, R93 and R94 -/

/-- R93. -/
theorem test_decodeCommands :
    decodeTableWord 8 0x00 = some .nop ∧ decodeTableWord 8 0x01 = some .filter ∧
    decodeTableWord 8 0x02 = some .decrypt ∧ decodeTableWord 8 0x03 = some .encrypt ∧
    decodeTableWord 8 0x04 = some .extract ∧ decodeTableWord 8 0x05 = some .decode ∧
    decodeTableWord 8 0x06 = some .process ∧ decodeTableWord 8 0x07 = some .lock ∧
    decodeTableWord 8 0x08 = some .clear := by decide

/-- R94: the two ends of each reserved row. -/
theorem test_decodeReserved :
    decodeTableWord 8 0x09 = some .reserved09 ∧ decodeTableWord 8 0x0A = some (.reserved0A 0x0A#8) ∧
    decodeTableWord 8 0x0B = some (.reserved0A 0x0B#8) ∧ decodeTableWord 8 0x0C = some (.reserved0C 0x0C#8) ∧
    decodeTableWord 8 0x0F = some (.reserved0C 0x0F#8) ∧ decodeTableWord 8 0x10 = some (.reserved10 0x10#8) ∧
    decodeTableWord 8 0x1F = some (.reserved10 0x1F#8) ∧ decodeTableWord 8 0x20 = some (.reserved20 0x20#8) ∧
    decodeTableWord 8 0x3F = some (.reserved20 0x3F#8) ∧ decodeTableWord 8 0x40 = some (.reserved40 0x40#8) ∧
    decodeTableWord 8 0x7F = some (.reserved40 0x7F#8) ∧ decodeTableWord 8 0x80 = some (.reserved80 0x80#8) ∧
    decodeTableWord 8 0xFF = some (.reserved80 0xFF#8) := by decide

/-- V-H1 and V-H2, on two words of P1. -/
theorem test_decodeHtx :
    decodeTableWord 24 0x016779 = some (.htxWr 0x67#8 0x79#8) ∧ decodeTableWord 24 0x000A00 = some (.htxRd 0x0A#8) := by
  decide

/-- V-H3 to V-H6. -/
theorem test_refusedWords :
    decodeHtx 0x000105 = .error .readWithData ∧ decodeHtx 0x020000 = .error .reservedBitsSet ∧
    decodeHtx 0xFE0100 = .error .reservedBitsSet ∧ decodeHtx 0x1000000 = .error .wordTooWide := ⟨rfl, rfl, rfl, rfl⟩

/-! ## The cipher -/

/-- V-C1 (FIPS-197 Appendix C.1), both ways. -/
theorem test_cipherC1 :
    let k : Block := #v[0#8, 1#8, 2#8, 3#8, 4#8, 5#8, 6#8, 7#8, 8#8, 9#8, 10#8, 11#8, 12#8, 13#8, 14#8, 15#8]
    let x : Block := #v[0x00#8, 0x11#8, 0x22#8, 0x33#8, 0x44#8, 0x55#8, 0x66#8, 0x77#8, 0x88#8, 0x99#8, 0xAA#8, 0xBB#8,
      0xCC#8, 0xDD#8, 0xEE#8, 0xFF#8]
    let y : Block := #v[0x69#8, 0xC4#8, 0xE0#8, 0xD8#8, 0x6A#8, 0x7B#8, 0x04#8, 0x30#8, 0xD8#8, 0xCD#8, 0xB7#8, 0x80#8,
      0x70#8, 0xB4#8, 0xC5#8, 0x5A#8]
    Aes.cipher k x = y ∧ Aes.invCipher k y = x := by decide +kernel

/-- V-C4: the last round key of the document's key. -/
theorem test_keyScheduleK :
    Aes.roundKey (Aes.keyExpansion keyK) 10 =
      ⟨⟨0x50#8, 0x4E#8, 0x79#8, 0x9E#8⟩, ⟨0x76#8, 0x33#8, 0x7F#8, 0xE9#8⟩, ⟨0xE4#8, 0x35#8, 0xD5#8, 0xD3#8⟩,
       ⟨0x06#8, 0x55#8, 0x0A#8, 0xBA#8⟩⟩ := by decide +kernel

/-- V-C7. -/
theorem test_components :
    Aes.xtime 0x57#8 = 0xAE#8 ∧ Aes.gmul 0x57#8 0x83#8 = 0xC1#8 ∧ Aes.gmul 0x57#8 0x13#8 = 0xFE#8 ∧
    Aes.sbox 0x53#8 = 0xED#8 ∧ Aes.invSbox 0x00#8 = 0x52#8 ∧
    Aes.mixCol ⟨0xDB#8, 0x13#8, 0x53#8, 0x45#8⟩ = ⟨0x8E#8, 0x4D#8, 0xA1#8, 0xBC#8⟩ := by decide +kernel

/-! ## The commands -/

/-- V-K3. -/
theorem test_nop : nextMeets (fun t => t.status == 0xF1#8) (exec .nop { scenarioA with status := 0xF1#8 }) = true := by
  decide +kernel

/-- V-F7. -/
theorem test_filterAccepts :
    nextMeets (fun t => t.status == 0x11#8 && t.blk == ctC && t.decCount == 0#8) (exec .filter scenarioA) = true := by
  decide +kernel

/-- V-F16, verbose: the bytes from 8 on are not needed. -/
theorem test_filterForeign :
    nextMeets (fun t => t.status == 0x53#8 && t.blkW == 0#16)
      (exec .filter { holding frameF 22#16 0x0000FF#24 with verbose := true }) = true := by
  decide +kernel

/-- V-C8a. -/
theorem test_decrypt :
    nextMeets (fun t => t.status == 0x21#8 && t.blk == ptP && t.decCount == 1#8)
      (exec .decrypt (withBlk ctC 0xFFFF#16)) = true := by
  decide +kernel

/-- V-C8h: the key check comes first. -/
theorem test_decryptNoKey :
    nextMeets (fun t => t.status == 0x45#8 && t.blkW == 0#16) (exec .decrypt { configured with keyW := 0x7FFF#16 }) =
      true := by
  decide +kernel

/-- V-R1. -/
theorem test_encrypt :
    nextMeets (fun t => t.status == 0x01#8 && t.blk == ctC && t.decCount == 0#8)
      (exec .encrypt (withBlk ptP 0xFFFF#16)) = true := by
  decide +kernel

/-- V-C8d. -/
theorem test_encryptNoKey :
    nextMeets (fun t => t.status == 0x47#8 && t.blk == zeroBlock)
      (exec .encrypt { State.reset with blk := zeroBlock, blkW := 0xFFFF#16 }) = true := by
  decide +kernel

/-- V-X4: unsigned, and the battery is passed through. -/
theorem test_extract :
    nextMeets (fun t => t.status == 0xC1#8 && t.resTemp == 32768#16 && t.resHum == 32768#16 && t.resBatt == 101#8)
      (exec .extract (withBlk (#v[0x80#8, 0#8, 0x80#8, 0#8, 0x65#8] ++ Vector.replicate 11 0xAA#8) 0xFFFF#16)) =
      true := by
  decide +kernel

/-- V-X6. -/
theorem test_extractUnwritten :
    faultsWith (.unwrittenRead .blk 4) (exec .extract (withBlk ptP 0x000F#16)) = true := by
  decide +kernel

/-- V-D3: a wrong key gives a record. -/
theorem test_decode :
    nextMeets (fun t => t.status == 0xE1#8 && t.resTemp == 35363#16 && t.resHum == 15615#16 && t.resBatt == 159#8)
      (exec .decode { withBlk ctC 0xFFFF#16 with key := zeroBlock }) = true := by
  decide +kernel

/-- V-D2. -/
theorem test_decodeNoKey :
    nextMeets (fun t => t.status == 0x45#8 && t.blk == ctC)
      (exec .decode { withBlk ctC 0xFFFF#16 with keyW := 0x7FFF#16 }) = true := by
  decide +kernel

/-- V-P1. -/
theorem test_process :
    nextMeets (fun t => t.status == 0xF1#8 && t.blk == ptP && t.resTemp == 2458#16 && t.resHum == 6000#16 &&
      t.resBatt == 90#8 && t.decCount == 1#8) (exec .process scenarioA) = true := by
  decide +kernel

/-- V-P9. -/
theorem test_processUnwritten :
    faultsWith (.unwrittenRead .frame 8) (exec .process (holding frameA 24#16 0x0000FF#24)) = true := by
  decide +kernel

/-- V-L1. -/
theorem test_lock : nextMeets (fun t => t.status == 0x01#8 && ctrlByte t == 0x02#8) (exec .lock configured) = true := by
  decide +kernel

/-- V-L5. -/
theorem test_lockIncomplete :
    nextMeets (fun t => t.status == 0x47#8 && ctrlByte t == 0x00#8) (exec .lock { configured with sigW := 0x1F#6 }) =
      true := by
  decide +kernel

/-- V-K1. -/
theorem test_clear :
    nextMeets (fun t => t.status == 0x00#8 && t.resTemp == 0#16 && t.blk == zeroBlock && t.frameLen == 0#16 &&
      t.decCount == 1#8 && ctrlByte t == 0x02#8 && t.frame == frameA)
      (exec .clear { scenarioA with status := 0xF1#8, resTemp := 2458#16, decCount := 1#8, blk := ptP }) = true := by
  decide +kernel

/-- V-K5. -/
theorem test_reserved :
    ([0x09#8, 0x10#8, 0x7F#8, 0x80#8, 0xFF#8].all fun d =>
      nextMeets (fun t => t.status == 0x48#8 && t.err == 0x02#8) (exec (.htxWr 0x00#8 d) State.reset)) = true := by
  decide +kernel

/-! ## Host transactions -/

/-- V-A6: a write to SIG5 while locked. -/
theorem test_writeLocked :
    nextMeets (fun t => t.sig == sigS && t.err == 0x01#8) (exec (.htxWr 0x25#8 0x78#8) scenarioA) = true := by
  decide +kernel

/-- V-A8: write 1 to clear. -/
theorem test_writeErr :
    nextMeets (fun t => t.err == 0x05#8) (exec (.htxWr 0x03#8 0x02#8) { State.reset with err := 0x07#8 }) = true := by
  decide +kernel

/-- V-A3 and V-A4: unmapped addresses and KEY read as zero, and nothing is an error. -/
theorem test_readZero :
    ([0x05#8, 0x09#8, 0x0C#8, 0x15#8, 0x26#8, 0x50#8, 0x78#8, 0xFF#8, 0x30#8, 0x3F#8].all fun a =>
      nextMeets (fun t => t.reads == [0x00#8] && t.err == 0x00#8) (exec (.htxRd a) configured)) = true := by
  decide +kernel

/-- V-A7. -/
theorem test_readUnwritten :
    (faultsWith (.unwrittenRead .blk 0) (exec (.htxRd 0x40#8) State.reset) &&
      faultsWith (.unwrittenRead .sig 0) (exec (.htxRd 0x20#8) State.reset) &&
      faultsWith (.unwrittenRead .frame 0) (exec (.htxRd 0x60#8) State.reset)) = true := by
  decide +kernel

/-! ## Rendering and the assembler -/

/-- The rendering table of Part 4. -/
theorem test_rendering :
    renderHundredths 2458#16 = "24.58" ∧ renderHundredths 5#16 = "0.05" ∧ renderHundredths 65535#16 = "655.35" ∧
    renderBattery 255#8 = "255" := by decide +kernel

/-- Statements 1, 6 and 12 of P1, with a comment. -/
theorem test_assemble :
    Asm.assemble "ldsig 74 68 65 72 6D 79 ; load\nlock\n\nrdrec" =
      .ok [0x012074, 0x012168, 0x012265, 0x012372, 0x01246D, 0x012579, 0x010007, 0x001000, 0x001100, 0x001200, 0x001300,
        0x001400] ∧
    Asm.assemble "nop\nwr SIG6, 0x00" = .error (.unknownName, 2) := by decide +kernel

/-! ## Witnesses: states and operands that meet the hypotheses of the statements -/

theorem allWritten_of {n : Nat} {w : BitVec n} {a b : Nat} (h : firstUnwritten w a b = none) : AllWritten w a b :=
  (firstUnwritten_eq_none_iff w a b).1 h

theorem firstHole_of {n : Nat} {w : BitVec n} {a b k : Nat} (h : firstUnwritten w a b = some k) : FirstHole w a b k :=
  (firstUnwritten_eq_some_iff w a b k).1 h

/-- DecodeEncodeRoundTrip: the operands at the ends of two rows' ranges. -/
theorem witness_wellFormed :
    (Instr.reserved0A 0x0A#8).wellFormed = true ∧ (Instr.reserved0A 0x0B#8).wellFormed = true ∧
    (Instr.reserved80 0xFF#8).wellFormed = true ∧ (Instr.htxWr 0xFF#8 0xFF#8).wellFormed = true := by decide

/-- EncodeDecodeRoundTrip. -/
theorem witness_decodes :
    decode (.cmd8 0xFF#8) = .ok (.reserved80 0xFF#8) ∧ decode (.htx 0x01FFFF) = .ok (.htxWr 0xFF#8 0xFF#8) := ⟨rfl, rfl⟩

/-- IllegalWordRefusesProgram: the least bad word of each kind, behind a legal one, and the two greatest good words. -/
theorem witness_badWords :
    (∃ before, { State.reset with program := [.transaction (.cmd8 0x06#8), .transaction (.htx 0x1000000)] }.program =
      before ++ .transaction (.htx 0x1000000) :: [] ∧ ∀ e ∈ before, EncodesEvent e) ∧
    BadWord 0x1000000 ∧ BadWord 0x020000 ∧ BadWord 0x000001 ∧ ¬ BadWord 0x01FFFF ∧ ¬ BadWord 0x00FF00 := by
  refine ⟨⟨[.transaction (.cmd8 0x06#8)], rfl, fun e he => ?_⟩, ?_, ?_, ?_, ?_, ?_⟩
  · obtain rfl := List.mem_singleton.1 he
    exact ⟨.process, rfl⟩
  all_goals simp only [BadWord]
  all_goals decide

/-- ReservedOpcodesAreBadCommands and CommandWritesFollowOpcodeMap: the first and the last reserved opcode. -/
theorem witness_reservedOpcodes : 9 ≤ (0x09#8).toNat ∧ 9 ≤ (0xFF#8).toNat := by decide

/-- StepRunsDecodedInstruction, PlatformResetStep, IdleStepKeepsState and PlacedWordRunsNext. -/
theorem witness_programs :
    { State.reset with program := [.transaction (.htx 0x000100), .reset] }.program = .transaction (.htx 0x000100) :: [.reset] ∧
    decode (.htx 0x000100) = .ok (.htxRd 0x01#8) ∧ (∀ e ∈ [HostEvent.reset], EncodesEvent e) ∧
    { State.reset with program := [.reset] }.program = [.reset] ∧ State.reset.program = [] ∧
    decodeTableWord 24 0x000100 = some (.htxRd 0x01#8) := by
  refine ⟨rfl, rfl, fun e he => ?_, rfl, rfl, rfl⟩
  obtain rfl := List.mem_singleton.1 he
  trivial

/-- LockChecksConfiguration (and the locked clause of ClearDiscardsResult): a missing byte at either end. -/
theorem witness_lock :
    scenarioA.locked = true ∧ configured.locked = false ∧ (∀ i : Fin 6, configured.sigW.getLsbD i = true) ∧
    (∀ i : Fin 16, configured.keyW.getLsbD i = true) ∧
    (∃ i : Fin 6, { configured with sigW := 0x1F#6 }.sigW.getLsbD i = false) ∧
    (∃ i : Fin 16, { configured with keyW := 0xFFFE#16 }.keyW.getLsbD i = false) :=
  ⟨rfl, rfl, by decide, by decide, ⟨5, by decide⟩, ⟨0, by decide⟩⟩

theorem matches_frameA (len : HalfWord) (w : BitVec 24) : SignatureMatches (holding frameA len w) := by
  have h : ∀ i : Fin 6, frameA[2 + i.val] = sigS[i] := by decide +kernel
  exact h

theorem not_matches_frameF (len : HalfWord) (w : BitVec 24) : ¬ SignatureMatches (holding frameF len w) := by
  intro h
  have hne : frameF[2 + (5 : Fin 6).val] ≠ sigS[(5 : Fin 6)] := by decide +kernel
  exact hne (h 5)

/-- FilterCommand and ProcessCommand: unlocked; lengths 21 and 22 at the threshold. -/
theorem witness_filterLengths :
    configured.locked = false ∧ (holding frameA 21#16 0#24).locked = true ∧
    (holding frameA 21#16 0#24).frameLen.toNat < 22 ∧ 22 ≤ (holding frameA 22#16 0#24).frameLen.toNat := by decide

/-- FilterCommand and ProcessCommand: the first unwritten byte at either end of FRAME[2..7] and of SIG[0..5]. -/
theorem witness_filterSignatureHoles :
    FirstHole (holding frameA 22#16 0x000003#24).frameW 2 6 2 ∧ FirstHole (holding frameA 22#16 0x00007F#24).frameW 2 6 7 ∧
    AllWritten (holding frameA 22#16 0x0000FC#24).frameW 2 6 ∧
    FirstHole { holding frameA 22#16 0x0000FC#24 with sigW := 0x3E#6 }.sigW 0 6 0 ∧
    FirstHole { holding frameA 22#16 0x0000FC#24 with sigW := 0x1F#6 }.sigW 0 6 5 :=
  ⟨firstHole_of (by decide), firstHole_of (by decide), allWritten_of (by decide), firstHole_of (by decide),
    firstHole_of (by decide)⟩

/-- FilterCommand and ProcessCommand: a foreign signature, and a matching one at the lengths 22, 23 and 25. -/
theorem witness_filterRejections :
    AllWritten (holding frameF 22#16 0x0000FC#24).frameW 2 6 ∧ AllWritten (holding frameF 22#16 0x0000FC#24).sigW 0 6 ∧
    ¬ SignatureMatches (holding frameF 22#16 0x0000FC#24) ∧ SignatureMatches (holding frameA 22#16 0x0000FC#24) ∧
    (holding frameA 22#16 0x0000FC#24).frameLen.toNat ≠ 24 ∧ (holding frameA 23#16 0x0000FC#24).frameLen.toNat ≠ 24 ∧
    (holding frameA 25#16 0x0000FC#24).frameLen.toNat ≠ 24 :=
  ⟨allWritten_of (by decide), allWritten_of (by decide), not_matches_frameF _ _, matches_frameA _ _, by decide, by decide,
    by decide⟩

/-- FilterCommand and ProcessCommand at length 24: the first unwritten byte at either end of FRAME[8..23], and none, with
FRAME[0..1] never written; and the key missing a byte. -/
theorem witness_filterAccepts :
    (holding frameA 24#16 0xFFFFFC#24).frameLen.toNat = 24 ∧ SignatureMatches (holding frameA 24#16 0xFFFFFC#24) ∧
    FirstHole (holding frameA 24#16 0x0000FC#24).frameW 8 16 8 ∧
    FirstHole (holding frameA 24#16 0x7FFFFC#24).frameW 8 16 23 ∧
    AllWritten (holding frameA 24#16 0xFFFFFC#24).frameW 2 22 ∧
    AllWritten (holding frameA 24#16 0xFFFFFC#24).sigW 0 6 ∧ (holding frameA 24#16 0xFFFFFC#24).keyW = 0xFFFF#16 ∧
    { holding frameA 24#16 0xFFFFFC#24 with keyW := 0x7FFF#16 }.keyW ≠ 0xFFFF#16 :=
  ⟨rfl, matches_frameA _ _, firstHole_of (by decide), firstHole_of (by decide), allWritten_of (by decide),
    allWritten_of (by decide), rfl, by decide⟩

/-- DecryptCommand, EncryptCommand, DecodeCommand and EncryptThenDecodeRoundTrip: the key missing a byte; BLK missing its
first or its last byte, or none. -/
theorem witness_cipherCommands :
    { configured with keyW := 0xFFFE#16 }.keyW ≠ 0xFFFF#16 ∧ (withBlk ctC 0xFFFF#16).keyW = 0xFFFF#16 ∧
    FirstHole (withBlk ctC 0xFFFE#16).blkW 0 16 0 ∧ FirstHole (withBlk ctC 0x7FFF#16).blkW 0 16 15 ∧
    AllWritten (withBlk ctC 0xFFFF#16).blkW 0 16 :=
  ⟨by decide, rfl, firstHole_of (by decide), firstHole_of (by decide), allWritten_of (by decide)⟩

/-- ExtractCommand: the first or the last of its five bytes missing, or none. -/
theorem witness_extract :
    FirstHole (withBlk ptP 0xFFFE#16).blkW 0 5 0 ∧ FirstHole (withBlk ptP 0xFFEF#16).blkW 0 5 4 ∧
    AllWritten (withBlk ptP 0x001F#16).blkW 0 5 :=
  ⟨firstHole_of (by decide), firstHole_of (by decide), allWritten_of (by decide)⟩

/-- ReservedCommands, ReadOnlyWritesIgnored and the lists of HostWriteEffects, SixteenBitRegistersBigEndian and
ResetValues: members. -/
theorem witness_members :
    Instr.reserved80 0xFF#8 ∈ [Instr.reserved09, .reserved0A 0xFF#8, .reserved0C 0xFF#8, .reserved10 0xFF#8,
      .reserved20 0xFF#8, .reserved40 0xFF#8, .reserved80 0xFF#8] ∧
    Reg.resBatt ∈ [Reg.status, .decCount, .sigValid, .keyValidH, .keyValidL, .resTempH, .resTempL, .resHumH, .resHumL,
      .resBatt] ∧
    (0x12, State.reset.resHum) ∈ [(0x06, State.reset.frameLen), (0x0A, State.reset.keyW), (0x10, State.reset.resTemp),
      (0x12, State.reset.resHum)] ∧
    0x14#8 ∈ [0x01#8, 0x04#8, 0x08#8, 0x0A#8, 0x0B#8, 0x10#8, 0x11#8, 0x12#8, 0x13#8, 0x14#8] := by
  refine ⟨by decide, by decide, by simp, by decide⟩

/-- HostReadValues, HostWriteEffects and RegisterMapExact: a written and an unwritten byte at each end of an array, a
mapped and an unmapped address. -/
theorem witness_hostAccess :
    (withBlk ctC 0x7FFF#16).blkW.getLsbD (0 : Fin 16) = true ∧ (withBlk ctC 0x7FFF#16).blkW.getLsbD (15 : Fin 16) = false ∧
    (holding frameA 24#16 0x7FFFFF#24).frameW.getLsbD (0 : Fin 24) = true ∧
    (holding frameA 24#16 0x7FFFFF#24).frameW.getLsbD (23 : Fin 24) = false ∧
    configured.sigW.getLsbD (5 : Fin 6) = true ∧ State.reset.sigW.getLsbD (0 : Fin 6) = false ∧
    regAt 0x77#8 = some (.frame 23) ∧ regAt 0x78#8 = none := by decide

/-- UnmappedAddresses: both ends of every range. -/
theorem witness_unmapped :
    ∀ a ∈ [0x05#8, 0x09#8, 0x0C#8, 0x0F#8, 0x15#8, 0x1F#8, 0x26#8, 0x2F#8, 0x50#8, 0x5F#8, 0x78#8, 0xFF#8],
      a.toNat = 0x05 ∨ a.toNat = 0x09 ∨ (0x0C ≤ a.toNat ∧ a.toNat ≤ 0x0F) ∨ (0x15 ≤ a.toNat ∧ a.toNat ≤ 0x1F) ∨
        (0x26 ≤ a.toNat ∧ a.toNat ≤ 0x2F) ∨ (0x50 ≤ a.toNat ∧ a.toNat ≤ 0x5F) ∨ 0x78 ≤ a.toNat := by decide

/-- HostWriteFrame: an address of each kind, with another address under each exception. -/
theorem witness_hostWriteFrame :
    0x77#8 ≠ 0x00#8 ∧ 0x76#8 ≠ 0x77#8 ∧ 0x76#8 ≠ 0x03#8 ∧ ¬ (0x20 ≤ (0x77#8).toNat ∧ (0x77#8).toNat ≤ 0x25) ∧
    ¬ (0x30 ≤ (0x2F#8).toNat ∧ (0x2F#8).toNat ≤ 0x3F) ∧ (0x40 ≤ (0x4F#8).toNat ∧ (0x4F#8).toNat ≤ 0x4F) ∧
    (0x60 ≤ (0x77#8).toNat ∧ (0x77#8).toNat ≤ 0x77) ∧
    (configured.locked = false ∧ 0x20 ≤ (0x25#8).toNat ∧ (0x25#8).toNat ≤ 0x25) := by decide

theorem legal_scenarioA : LegalState scenarioA := ⟨by decide, by decide, fun _ => ⟨rfl, rfl⟩⟩

/-- StepKeepsLegalState and LockedConfigurationPersists (and the premise of ErrWriteOneToClear): a locked legal state
with PROCESS next. -/
theorem witness_step :
    let s := { scenarioA with program := [.transaction (.cmd8 0x06#8)] }
    LegalState s ∧ s.locked = true ∧ (∀ rest, s.program ≠ .reset :: rest) ∧
      ∃ t, step s = .next t ∧ (t.status == 0xF1#8) = true := by
  refine ⟨legal_scenarioA, rfl, fun rest h => ?_, next_of_meets (by decide +kernel)⟩
  cases h

/-- DecCountCountsInverseCiphers, ResultRegistersChangeTogether, FailedCommandChangesOnlyStatus, EmitFollowsPolicy,
CommandsKeepFrameAndConfiguration, StatusWrittenOnlyByCommands and TransactionSetsAtMostOneErrorBit: a command that runs
the cipher and yields a record, one that is rejected, CLEAR, NOP, and a write and a read that run no command. -/
theorem witness_commands :
    (commandRun (.htxWr 0x00#8 0x06#8) = some .process ∧
      ∃ t, exec (.htxWr 0x00#8 0x06#8) scenarioA = .next t ∧
        (statusDecrun t.status && statusRec t.status && statusResult t.status == 1#4) = true) ∧
    (commandRun .process = some .process ∧ Instr.process ≠ .nop ∧ Instr.process ≠ .clear ∧
      ∃ t, exec .process (holding frameF 24#16 0xFFFFFF#24) = .next t ∧ (statusResult t.status != 1#4) = true) ∧
    (commandRun .clear = some .clear ∧ ∃ t, exec .clear scenarioA = .next t ∧ (t.resTemp == 0#16) = true) ∧
    (commandRun .nop = some .nop ∧ ∃ t, exec .nop scenarioA = .next t ∧ (t.status == 0x00#8) = true) ∧
    (commandRun (.htxWr 0x25#8 0x78#8) = none ∧ (∀ d, Instr.htxWr 0x25#8 0x78#8 ≠ .htxWr 0x03#8 d) ∧
      ∃ t, exec (.htxWr 0x25#8 0x78#8) scenarioA = .next t ∧ (t.err == 0x01#8) = true) ∧
    (commandRun (.htxRd 0x01#8) = none ∧ ∃ t, exec (.htxRd 0x01#8) scenarioA = .next t ∧ (t.reads == [0x00#8]) = true) := by
  refine ⟨⟨rfl, next_of_meets (by decide +kernel)⟩, ⟨rfl, by decide, by decide, next_of_meets (by decide +kernel)⟩,
    ⟨rfl, next_of_meets (by decide +kernel)⟩, ⟨rfl, next_of_meets (by decide +kernel)⟩,
    ⟨rfl, fun d h => ?_, next_of_meets (by decide +kernel)⟩, ⟨rfl, next_of_meets (by decide +kernel)⟩⟩
  injection h with h _
  revert h
  decide

/-- EmitFollowsPolicy: a result of each of its ranges, at their ends, left by a command; OK and NONE are above. -/
theorem witness_emit :
    (∃ t, exec .filter (holding frameA 21#16 0#24) = .next t ∧ (statusResult t.status == 2#4) = true) ∧
    (∃ t, exec .filter (holding frameA 25#16 0xFFFFFF#24) = .next t ∧ (statusResult t.status == 4#4) = true) ∧
    (∃ t, exec .decrypt State.reset = .next t ∧ (statusResult t.status == 5#4) = true) ∧
    (∃ t, exec .reserved09 State.reset = .next t ∧ (statusResult t.status == 8#4) = true) :=
  ⟨next_of_meets (by decide +kernel), next_of_meets (by decide +kernel), next_of_meets (by decide +kernel),
    next_of_meets (by decide +kernel)⟩

/-- UnwrittenBytesNeverObserved: two different states, unlike in every array where nothing is written. -/
theorem witness_agreeOnWritten :
    AgreeOnWritten State.reset { State.reset with sig := sigS, key := keyK, blk := ctC, frame := frameA } ∧
    State.reset ≠ { State.reset with sig := sigS, key := keyK, blk := ctC, frame := frameA } := by
  refine ⟨⟨rfl, fun i h => ?_, fun i h => ?_, fun i h => ?_, fun i h => ?_⟩, by decide +kernel⟩ <;>
    simp [State.reset] at h

/-- FilterReadsOnlyItsBytes: frames of length 23 that differ in the company identifier and from byte 8 on, and a frame of
length 24 that differs in the company identifier. -/
theorem witness_filterReads :
    let s := holding frameA 23#16 0xFFFFFF#24
    let t := holding ((frameA.set 0 0x00#8).set 8 0x00#8) 23#16 0x0000FF#24
    t.frameLen = s.frameLen ∧ t.sig = s.sig ∧ t.sigW = s.sigW ∧ s.frame ≠ t.frame ∧
    (∀ i : Fin 24, (22 ≤ s.frameLen.toNat ∧ 2 ≤ i.val ∧ i.val < 8) ∨ (s.frameLen.toNat = 24 ∧ 8 ≤ i.val) →
      t.frameW.getLsbD i = s.frameW.getLsbD i ∧ t.frame[i] = s.frame[i]) ∧
    (∀ i : Fin 24, (22 ≤ scenarioA.frameLen.toNat ∧ 2 ≤ i.val ∧ i.val < 8) ∨ (scenarioA.frameLen.toNat = 24 ∧ 8 ≤ i.val) →
      (holding (frameA.set 0 0x00#8) 24#16 0xFFFFFC#24).frameW.getLsbD i = scenarioA.frameW.getLsbD i ∧
        (holding (frameA.set 0 0x00#8) 24#16 0xFFFFFC#24).frame[i] = scenarioA.frame[i]) := by decide +kernel

/-- FilterAgreesWithDocument: the Scenario A frame, an empty frame, and a frame one byte longer than FRAME_LEN can say,
with FRAME_LEN at the ends of its range. -/
theorem witness_document :
    HoldsFrame scenarioA frameA.toList ∧ HoldsFrame (holding frameA 0#16 0#24) [] ∧ AllWritten scenarioA.sigW 0 6 ∧
    65536 ≤ (frameA.toList ++ List.replicate 65512 0x00#8).length ∧
    25 ≤ (holding frameA 25#16 0xFFFFFF#24).frameLen.toNat ∧ 25 ≤ (holding frameA 0xFFFF#16 0xFFFFFF#24).frameLen.toNat ∧
    ∀ i : Fin 24, (holding frameA 25#16 0xFFFFFF#24).frameW.getLsbD i = true ∧
      (frameA.toList ++ List.replicate 65512 0x00#8)[i.val]? = some (holding frameA 25#16 0xFFFFFF#24).frame[i] := by
  refine ⟨⟨by decide, by decide +kernel⟩, ⟨by decide, fun i h => absurd h (Nat.not_lt_zero _)⟩, allWritten_of (by decide),
    ?_, by decide, by decide, fun i => ⟨?_, ?_⟩⟩
  · rw [List.length_append, List.length_replicate, Vector.length_toList]
  · revert i
    decide
  · have h : i.val < frameA.toList.length := by simp
    rw [List.getElem?_append_left h]
    revert i
    decide +kernel

/-- CommandsIndependentOfHistory: two states with one configuration and one frame (and one BLK) and nothing else alike. -/
theorem witness_history :
    let s' := { scenarioA with status := 0x48#8, err := 0x07#8, decCount := 0xFF#8, resTemp := 1#16 }
    SameConfiguration scenarioA s' ∧ s'.frameLen = scenarioA.frameLen ∧ s'.frame = scenarioA.frame ∧
    s'.frameW = scenarioA.frameW ∧ s'.blk = scenarioA.blk ∧ s'.blkW = scenarioA.blkW ∧
    (∃ t, exec .process scenarioA = .next t ∧ statusRec t.status = true) ∧
    (∃ t, exec .process (holding frameF 24#16 0xFFFFFF#24) = .next t ∧ (!statusRec t.status) = true) ∧
    ∃ t, exec .decode (withBlk ctC 0xFFFF#16) = .next t ∧ statusRec t.status = true :=
  ⟨⟨rfl, rfl, rfl, rfl, rfl, rfl⟩, rfl, rfl, rfl, rfl, rfl, next_of_meets (by decide +kernel),
    next_of_meets (by decide +kernel), next_of_meets (by decide +kernel)⟩

/-- ProcessIsFilterThenDecode and DecodeIsDecryptThenExtract: the first command succeeds, and it does not. -/
theorem witness_composition :
    LegalState scenarioA ∧
    (∃ t, exec .filter scenarioA = .next t ∧ (statusResult t.status == 1#4) = true) ∧
    (∃ t, exec .filter (holding frameF 24#16 0xFFFFFF#24) = .next t ∧ (statusResult t.status != 1#4) = true) ∧
    (∃ t, exec .decrypt (withBlk ctC 0xFFFF#16) = .next t ∧ (statusResult t.status == 1#4) = true) ∧
    ∃ t, exec .decrypt State.reset = .next t ∧ (statusResult t.status != 1#4) = true :=
  ⟨legal_scenarioA, next_of_meets (by decide +kernel), next_of_meets (by decide +kernel),
    next_of_meets (by decide +kernel), next_of_meets (by decide +kernel)⟩

/-- RunPerformsWholeProgram: a program of a write, a read, a reset and a read that has a result. -/
theorem witness_run :
    ∃ t r, runResult { State.reset with program := [.transaction (.htx 0x010009), .transaction (.htx 0x000100), .reset,
      .transaction (.htx 0x000300)] } = some (t, r) := by
  refine ⟨_, _, rfl⟩

/-- KeyScheduleRecurrence: its first and last index. -/
theorem witness_keySchedule : 4 ≤ 4 ∧ 4 < 44 ∧ 4 ≤ 43 ∧ 43 < 44 := by decide

/-- AssembledWordsEncode. -/
theorem witness_assemble : Asm.assemble "lock
rd CTRL" = .ok [0x010007, 0x000200] := by decide +kernel

end Sys2Proof.Tests
end

/-! The step on a program that opens with a transaction: the host's next item, and an item placed by `withFetchWord`. -/

namespace Sys2Proof.Machine

/-- The instruction the decoder reads from a table word is the one its raw item decodes to (R90, R91). -/
theorem decodeTableWord_eq_some_iff {nbits w : Nat} {i : Instr} :
    decodeTableWord nbits w = some i ↔ decode (tableItem nbits w) = .ok i := by
  rw [decodeTableWord]
  cases decode (tableItem nbits w) with
  | error e => simp
  | ok j => simp

/-- A step on a legal program that opens with a transaction performs that transaction whole (R12, R72, R73, R95). -/
theorem step_transaction {s : State} {item : RawItem} {rest : List HostEvent} {i : Instr}
    (hp : s.program = .transaction item :: rest) (hi : decode item = .ok i) (hrest : ∀ e ∈ rest, EncodesEvent e) :
    step s = exec i (withProgram rest s) := by
  rw [step, hp, fetch_transaction hi hrest]

/-- Loading a program forgets the program that stood there before. -/
@[simp] theorem withProgram_withProgram (p q : List HostEvent) (s : State) :
    withProgram p (withProgram q s) = withProgram p s := rfl

/-- Settles O9: the fetch of a legal program takes its first event off and runs what it decodes to. -/
theorem stepRunsDecodedInstruction : Obligations.StepRunsDecodedInstruction := by
  intro s item rest i hp hi hrest
  exact step_transaction hp hi hrest

/-- Settles O10: the placed item is a one-event program, whose rest is empty and so legal. -/
theorem placedWordRunsNext : Obligations.PlacedWordRunsNext := by
  intro s nbits w i hw
  have hi : decode (tableItem nbits w) = .ok i := decodeTableWord_eq_some_iff.1 hw
  have hnil : ∀ e ∈ ([] : List HostEvent), EncodesEvent e := fun _ he => absurd he List.not_mem_nil
  calc step (s.withFetchWord nbits w)
      = exec i (withProgram [] (s.withFetchWord nbits w)) := step_transaction rfl hi hnil
    _ = exec i (withProgram [] s) := by rw [withFetchWord_eq, withProgram_withProgram]

end Sys2Proof.Machine

/-! The register map read backwards, and host accesses by register byte (R23, R61, R62). -/

namespace Sys2Proof.Machine

/-- The byte arrays' part of the map gives each byte at its own address. -/
theorem address_of_arrayRegAt {n : Nat} {r : Reg} (h : arrayRegAt n = some r) : r.address = BitVec.ofNat 8 n := by
  unfold arrayRegAt at h
  split_ifs at h
  all_goals
    cases h
    simp only [Reg.address]
    congr 1
    omega

/-- A register byte is mapped at its own address only (R23). -/
theorem address_of_regAt {a : Byte} {r : Reg} (h : regAt a = some r) : r.address = a := by
  have ha : a = BitVec.ofNat 8 a.toNat := by simp
  rw [ha]
  unfold regAt at h
  split at h
  case h_16 => exact address_of_arrayRegAt h
  all_goals
    rename_i hn
    cases h
    rw [hn]
    rfl

/-- Every register byte is mapped at its address (R23). -/
@[simp] theorem regAt_address (r : Reg) : regAt r.address = some r := by
  cases r with
  | sig i => exact (show ∀ i, regAt (Reg.sig i).address = some (.sig i) by decide) i
  | key i => exact (show ∀ i, regAt (Reg.key i).address = some (.key i) by decide) i
  | blk i => exact (show ∀ i, regAt (Reg.blk i).address = some (.blk i) by decide) i
  | frame i => exact (show ∀ i, regAt (Reg.frame i).address = some (.frame i) by decide) i
  | _ => rfl

/-- A host read of a register byte that has a value returns it (R61, R67). -/
theorem readReturns_address {r : Reg} {s : State} {v : Byte} (h : readReg r s = .ok v) : ReadReturns s r.address v :=
  execHtxRd_of_ok ((hostRead_of_regAt (regAt_address r)).trans h)

/-- A host write to the address of a register byte other than CMD is the write of that byte (R62). -/
theorem writeGives_address {r : Reg} (hr : r ≠ .cmd) (s : State) (d : Byte) :
    WriteGives s r.address d (writeReg r d s) :=
  execHtxWr_of_regAt (regAt_address r) hr

/-- What KEY holds is read by no register byte (R37). -/
theorem readReg_withKey (r : Reg) (s : State) (k : Block) : readReg r { s with key := k } = readReg r s := by
  cases r <;> rfl

/-- Settles O26: both directions of the map by its parts, and one count over the 256 addresses. -/
theorem registerMapExact : Obligations.RegisterMapExact :=
  ⟨regAt_address, fun _ _ h => address_of_regAt h, by decide⟩

/-- Settles O33: a mapped address reads its register byte, none of which shows KEY, and an unmapped one reads 0x00. -/
theorem keyNeverReadBack : Obligations.KeyNeverReadBack := by
  intro a s k
  cases hr : regAt a with
  | none => rw [hostRead_of_unmapped hr, hostRead_of_unmapped hr]
  | some r => rw [hostRead_of_regAt hr, hostRead_of_regAt hr, readReg_withKey]

/-- With the reserved bits of ERR at 0, masking with the three named bits changes nothing (R26). -/
theorem and_errMask_of_reserved_zero {e : Byte} (h : e &&& 0xF8#8 = 0x00#8) : e &&& 0x07#8 = e := by
  calc e &&& 0x07#8 = (e &&& 0x07#8) ||| (e &&& 0xF8#8) := by rw [h, BitVec.or_zero]
    _ = e &&& (0x07#8 ||| 0xF8#8) := BitVec.and_or_distrib_left.symm
    _ = e := BitVec.and_allOnes

/-- Settles O30: in a legal state the mask of R62 has no effect, so the write leaves `ERR & ~d`. -/
theorem errWriteOneToClear : Obligations.ErrWriteOneToClear := by
  rintro s d ⟨-, herr, -⟩
  have hmask : s.err &&& ~~~d &&& 0x07#8 = s.err &&& ~~~d := by
    rw [BitVec.and_assoc, BitVec.and_comm (~~~d), ← BitVec.and_assoc, and_errMask_of_reserved_zero herr]
  refine ⟨s.err &&& ~~~d, ?_, fun i => ?_⟩
  · rw [← hmask]
    exact writeGives_address (r := .err) nofun s d
  · rw [BitVec.getLsbD_and, BitVec.getLsbD_not]
    by_cases hi : i < 8
    · simp [hi]
    · simp [BitVec.getLsbD_of_ge s.err i (Nat.le_of_not_lt hi)]

end Sys2Proof.Machine

/-! The opcode map and the decoder name the same command (R28, R93, R94). -/

namespace Sys2Proof

/-- A row of the opcode table with a full mask holds one opcode. -/
@[simp] theorem matchesRow_full (value v : Byte) : matchesRow 0xFF#8 value v = (v == value) := by
  rw [matchesRow, show (0xFF#8 : Byte) = BitVec.allOnes 8 from rfl, BitVec.and_allOnes]

/-- A command byte is one of the nine opcodes of the commands or lies in the reserved range (R93, R94). -/
theorem opcode_cases (d : Byte) : (∃ n : Fin 9, d = BitVec.ofNat 8 n) ∨ 9 ≤ d.toNat := by
  rcases Nat.lt_or_ge d.toNat 9 with hd | hd
  · exact .inl ⟨⟨d.toNat, hd⟩, by simp⟩
  · exact .inr hd

/-- Every opcode from 0x09 on is reserved (R94). -/
theorem isReserved_decodeCmd8 {d : Byte} (h : 9 ≤ d.toNat) : Machine.isReserved (decodeCmd8 d) = true := by
  have hne : ∀ k : Nat, k < 9 → (d == BitVec.ofNat 8 k) = false := by
    intro k hk
    rw [beq_eq_false_iff_ne]
    rintro rfl
    rw [BitVec.toNat_ofNat] at h
    omega
  simp only [decodeCmd8, matchesRow_full, hne 0, hne 1, hne 2, hne 3, hne 4, hne 5, hne 6, hne 7, hne 8,
    Nat.reduceLT, Bool.false_eq_true, if_false]
  split_ifs <;> rfl

namespace Machine

/-- A reserved opcode is written as a command byte (R94). -/
theorem encode_of_isReserved {c : Instr} (hc : isReserved c = true) : ∃ e, encode c = .cmd8 e := by
  cases c with
  | reserved09 | reserved0A | reserved0C | reserved10 | reserved20 | reserved40 | reserved80 => exact ⟨_, rfl⟩
  | _ => cases hc

/-- What a command byte decodes to is written as a command byte, so it is no host transaction (R90). -/
theorem encode_decodeCmd8_isCmd8 (d : Byte) : ∃ e, encode (decodeCmd8 d) = .cmd8 e := by
  rcases opcode_cases d with ⟨n, rfl⟩ | hd
  · fin_cases n <;> exact ⟨_, rfl⟩
  · exact encode_of_isReserved (isReserved_decodeCmd8 hd)

/-- Every reserved opcode executes as BAD_COMMAND (R205). -/
theorem exec_of_isReserved {c : Instr} (hc : isReserved c = true) (s : State) : exec c s = badCommand s := by
  cases c with
  | reserved09 | reserved0A | reserved0C | reserved10 | reserved20 | reserved40 | reserved80 => rfl
  | _ => cases hc

/-- `Execute` of an opcode from 0x09 on (R94). -/
theorem execute_of_le {d : Byte} (h : 9 ≤ d.toNat) (s : State) : execute d s = badCommand s := by
  unfold execute
  split
  case h_10 => rfl
  all_goals omega

/-- `Execute` runs the command that its byte decodes to (R93). -/
theorem execute_eq_exec_decodeCmd8 (d : Byte) (s : State) : execute d s = exec (decodeCmd8 d) s := by
  rcases opcode_cases d with ⟨n, rfl⟩ | hd
  · fin_cases n <;> rfl
  · rw [execute_of_le hd, exec_of_isReserved (isReserved_decodeCmd8 hd)]

/-- Settles O8: the opcode map is the decoder's, and CMD holds no value of its own. -/
theorem cmdRegisterExecutes : Obligations.CmdRegisterExecutes := fun d s =>
  ⟨execute_eq_exec_decodeCmd8 d s, readReturns_address (r := .cmd) rfl⟩

end Machine
end Sys2Proof

/-! Everything an instruction can do: what a command can make of a state, and what a host access that runs none can.
The rules of the whole machine are read off these two. -/

namespace Sys2Proof.Machine

/-- The results other than OK that a command can end with in any state, each with its SIGCMP (R110, R150, R151, R188,
R201, R202). -/
def failures : List (ResultCode × Bool) :=
  [(.notConfigured, false), (.decryptionFailed, false), (.tooShort, false), (.signatureMismatch, true),
   (.badCiphertextLength, true)]

/-- The commands that check something before they do their work. -/
def fallible : List Instr := [.filter, .decrypt, .encrypt, .decode, .process, .lock]

/-- The states a command can leave from `s`, by command and by the way it ends. -/
inductive CommandNext (s : State) : Instr → State → Prop where
  | nop : CommandNext s .nop s
  | clear : CommandNext s .clear (clearResult s)
  | badCommand {c : Instr} (hc : isReserved c = true) :
      CommandNext s c (finish .badCommand false false false (setErr errBadCmd s))
  /-- A command that could not do its work writes STATUS alone. -/
  | failed {c : Instr} {code : ResultCode} {sigcmp : Bool} (hc : c ∈ fallible)
      (hcode : (code, sigcmp) ∈ failures) : CommandNext s c (finish code sigcmp false false s)
  /-- PROCESS past its filter with an incomplete key, which a legal state excludes (R202). -/
  | keyMissing (hl : s.locked = true) (hk : s.keyW ≠ 0xFFFF#16) :
      CommandNext s .process (finish .decryptionFailed true false false s)
  | alreadyLocked (hl : s.locked = true) : CommandNext s .lock (finish .ok false false false s)
  | lock (hs : s.sigW = 0x3F#6) (hk : s.keyW = 0xFFFF#16) :
      CommandNext s .lock (finish .ok false false false (setLocked s))
  | filter {ct : Block} (hv : filterFn s = .ok (.accepted ct)) :
      CommandNext s .filter (finish .ok true false false (setBlk ct s))
  | encrypt : CommandNext s .encrypt (finish .ok false false false (setBlk (Aes.cipher s.key s.blk) s))
  | decrypt : CommandNext s .decrypt (finish .ok false true false (completeInvCipher s.blk s))
  | extract : CommandNext s .extract (finish .ok false false true (storeRecord (recordOf s.blk) s))
  | decode : CommandNext s .decode (finish .ok false true true
      (storeRecord (recordOf (Aes.invCipher s.key s.blk)) (completeInvCipher s.blk s)))
  | process {ct : Block} (hv : filterFn s = .ok (.accepted ct)) : CommandNext s .process (finish .ok true true true
      (storeRecord (recordOf (Aes.invCipher s.key ct)) (completeInvCipher ct s)))

/-- The states a host access that runs no command can leave from `s`: the write of a register byte, the bad access of
an unmapped address, and the record of a read (R61, R62, R68). -/
inductive AccessNext (s : State) : State → Prop where
  | write (r : Reg) (d : Byte) : AccessNext s (writeReg r d s)
  | unmapped : AccessNext s (setErr errBadAccess s)
  | read (v : Byte) : AccessNext s (recordRead v s)

/-- A verdict that rejects the frame is a failure, with the verdict's own SIGCMP (R110). -/
theorem verdict_mem_failures {v : FilterVerdict} (h : ∀ ct, v ≠ .accepted ct) :
    (verdictCode v, verdictSigcmp v) ∈ failures := by
  cases v with
  | accepted ct => exact absurd rfl (h ct)
  | tooShort | signatureMismatch | badCiphertextLength => decide

theorem commandNext_filter {s t : State} (h : execFilter s = .next t) : CommandNext s .filter t := by
  rcases execFilter_next h with ⟨-, rfl⟩ | ⟨-, v, hv, rfl⟩
  · exact .failed (by decide) (by decide)
  · cases v with
    | accepted ct => exact .filter hv
    | tooShort | signatureMismatch | badCiphertextLength => exact .failed (by decide) (verdict_mem_failures nofun)

theorem commandNext_decrypt {s t : State} (h : execDecrypt s = .next t) : CommandNext s .decrypt t := by
  rcases execDecrypt_next h with ⟨-, rfl⟩ | ⟨-, -, rfl⟩
  · exact .failed (by decide) (by decide)
  · exact .decrypt

theorem commandNext_encrypt {s t : State} (h : execEncrypt s = .next t) : CommandNext s .encrypt t := by
  rcases execEncrypt_next h with ⟨-, rfl⟩ | ⟨-, -, rfl⟩
  · exact .failed (by decide) (by decide)
  · exact .encrypt

theorem commandNext_extract {s t : State} (h : execExtract s = .next t) : CommandNext s .extract t := by
  obtain ⟨-, rfl⟩ := extractAndFinish_next h
  exact .extract

theorem commandNext_decode {s t : State} (h : execDecode s = .next t) : CommandNext s .decode t := by
  rcases execDecode_next h with ⟨-, rfl⟩ | ⟨-, -, rfl⟩
  · exact .failed (by decide) (by decide)
  · exact .decode

theorem commandNext_process {s t : State} (h : execProcess s = .next t) : CommandNext s .process t := by
  rcases execProcess_next h with ⟨-, rfl⟩ | ⟨hl, v, hv, ⟨hne, rfl⟩ | ⟨ct, rfl, ⟨hk, rfl⟩ | ⟨-, rfl⟩⟩⟩
  · exact .failed (by decide) (by decide)
  · exact .failed (by decide) (verdict_mem_failures hne)
  · exact .keyMissing hl (keyComplete_eq_false.1 hk)
  · exact .process hv

theorem commandNext_lock {s t : State} (h : execLock s = .next t) : CommandNext s .lock t := by
  rcases execLock_next h with ⟨hl, rfl⟩ | ⟨-, hs, hk, rfl⟩ | ⟨-, -, rfl⟩
  · exact .alreadyLocked hl
  · exact .lock hs hk
  · exact .failed (by decide) (by decide)

/-- An instruction written as a command byte is a command, and leaves what that command can. -/
theorem exec_command_next {c : Instr} {e : Byte} {s t : State} (hc : encode c = .cmd8 e) (h : exec c s = .next t) :
    CommandNext s c t := by
  cases c with
  | nop =>
    cases h
    exact .nop
  | filter => exact commandNext_filter h
  | decrypt => exact commandNext_decrypt h
  | encrypt => exact commandNext_encrypt h
  | extract => exact commandNext_extract h
  | decode => exact commandNext_decode h
  | process => exact commandNext_process h
  | lock => exact commandNext_lock h
  | clear =>
    cases h
    exact .clear
  | reserved09 | reserved0A | reserved0C | reserved10 | reserved20 | reserved40 | reserved80 =>
    cases h
    exact .badCommand rfl
  | htxWr | htxRd => cases hc

/-- Everything an instruction can do when it answers a next state. -/
theorem exec_next {i : Instr} {s t : State} (h : exec i s = .next t) :
    (∃ c, commandRun i = some c ∧ CommandNext s c t) ∨ (commandRun i = none ∧ AccessNext s t) := by
  cases i with
  | htxRd a =>
    obtain ⟨v, -, rfl⟩ := execHtxRd_next h
    exact .inr ⟨rfl, .read v⟩
  | htxWr a d =>
    rcases execHtxWr_next h with ⟨ha, hx⟩ | ⟨r, ha, hr, rfl⟩ | ⟨ha, rfl⟩
    · obtain rfl : 0x00#8 = a := address_of_regAt ha
      obtain ⟨e, he⟩ := encode_decodeCmd8_isCmd8 d
      exact .inl ⟨decodeCmd8 d, rfl, exec_command_next he ((execute_eq_exec_decodeCmd8 d s).symm.trans hx)⟩
    · have hne : a ≠ 0x00#8 := by
        rintro rfl
        exact hr (Option.some.inj ha).symm
      exact .inr ⟨if_neg hne, .write r d⟩
    · have hne : a ≠ 0x00#8 := by
        rintro rfl
        cases ha
      exact .inr ⟨if_neg hne, .unmapped⟩
  | _ => exact .inl ⟨_, rfl, exec_command_next rfl h⟩

/-! What `finish` leaves in the fields of STATUS (R24, R200). -/

/-- The numbers of the outcome codes fill RESULT alone (R39). -/
theorem resultNumber_lt (c : ResultCode) : (resultNumber c).toNat < 2 ^ 4 := by
  cases c <;> decide

theorem resultNumber_getLsbD_high (c : ResultCode) {i : Nat} (h : 4 ≤ i) : (resultNumber c).getLsbD i = false :=
  Nat.testBit_lt_two_pow ((resultNumber_lt c).trans_le (Nat.pow_le_pow_right (by decide) h))

theorem flagByte_getLsbD (b : Bool) (i : Nat) : (flagByte b).getLsbD i = (b && decide (i = 0)) := by
  cases b <;> simp [flagByte, BitVec.getLsbD_one]

@[simp] theorem statusDecrun_statusByte (c : ResultCode) (sc dr em rc : Bool) :
    statusDecrun (statusByte c sc dr em rc) = dr := by
  simp only [statusDecrun, statusByte, BitVec.getLsbD_or, BitVec.getLsbD_shiftLeft, flagByte_getLsbD]
  simp [-BitVec.getLsbD_eq_getElem, resultNumber_getLsbD_high]

@[simp] theorem statusRec_statusByte (c : ResultCode) (sc dr em rc : Bool) :
    statusRec (statusByte c sc dr em rc) = rc := by
  simp only [statusRec, statusByte, BitVec.getLsbD_or, BitVec.getLsbD_shiftLeft, flagByte_getLsbD]
  simp [-BitVec.getLsbD_eq_getElem, resultNumber_getLsbD_high]

/-! The invariant of the reachable states (R24, R26, R39, R202). -/

/-- How a command can end by `finish` in a legal state: every pair of `failures`, BAD_COMMAND, and the OK endings. -/
def legalEndings : List (ResultCode × Bool × Bool × Bool) :=
  failures.map (fun f => (f.1, f.2, false, false)) ++
    [(.badCommand, false, false, false), (.ok, false, false, false), (.ok, true, false, false),
     (.ok, false, true, false), (.ok, false, false, true), (.ok, false, true, true), (.ok, true, true, true)]

/-- What CLEAR and reset leave in STATUS (R203, R251). -/
theorem zero_mem_legalStatuses : 0x00#8 ∈ legalStatuses := by decide

/-- Each of these endings leaves a legal STATUS, verbose or not (R39, R189). -/
theorem statusByte_mem_legalStatuses (verbose : Bool) : ∀ e ∈ legalEndings,
    statusByte e.1 e.2.1 e.2.2.1 (emitPolicy e.1 e.2.2.2 verbose) e.2.2.2 ∈ legalStatuses := by
  cases verbose <;> decide

theorem finish_status_mem_legalStatuses {code : ResultCode} {sc dr rc : Bool}
    (h : (code, sc, dr, rc) ∈ legalEndings) (s : State) : (finish code sc dr rc s).status ∈ legalStatuses := by
  rw [finish_status]
  exact statusByte_mem_legalStatuses s.verbose (code, sc, dr, rc) h

theorem legalEndings_of_failures {code : ResultCode} {sc : Bool} (h : (code, sc) ∈ failures) :
    (code, sc, false, false) ∈ legalEndings :=
  List.mem_append_left _ (List.mem_map_of_mem (f := fun f => (f.1, f.2, false, false)) h)

/-- Setting a bit of ERR that is not reserved keeps the reserved bits 0 (R26). -/
theorem reserved_zero_or {e bit : Byte} (he : e &&& 0xF8#8 = 0x00#8) (hbit : bit &&& 0xF8#8 = 0x00#8) :
    (e ||| bit) &&& 0xF8#8 = 0x00#8 := by
  rw [BitVec.and_comm, BitVec.and_or_distrib_left, BitVec.and_comm _ e, BitVec.and_comm _ bit, he, hbit, BitVec.or_zero]

theorem LegalState.after_setErr {s : State} (hs : LegalState s) {bit : Byte} (hbit : bit &&& 0xF8#8 = 0x00#8) :
    LegalState (setErr bit s) := by
  obtain ⟨hst, herr, hlock⟩ := hs
  exact ⟨hst, reserved_zero_or herr hbit, hlock⟩

theorem LegalState.after_clearErr {s : State} (hs : LegalState s) (d : Byte) : LegalState (clearErr d s) := by
  obtain ⟨hst, -, hlock⟩ := hs
  refine ⟨hst, ?_, hlock⟩
  rw [clearErr_err, BitVec.and_assoc]
  exact BitVec.and_zero

/-- A host write of a register byte keeps the invariant: SIG and KEY take one only while unlocked (R62, R71). -/
theorem LegalState.after_writeReg {s : State} (hs : LegalState s) (r : Reg) (d : Byte) :
    LegalState (writeReg r d s) := by
  have ⟨hst, herr, hlock⟩ := hs
  cases r with
  | err => exact hs.after_clearErr d
  | cmd | ctrl | frameLenH | frameLenL | blk | frame => exact ⟨hst, herr, hlock⟩
  | sig i | key i =>
    cases hl : s.locked with
    | true =>
      rw [writeReg, if_pos hl]
      exact hs.after_setErr rfl
    | false =>
      rw [writeReg, if_neg (by simp [hl])]
      exact ⟨hst, herr, fun h => absurd (hl.symm.trans h) nofun⟩
  | _ => exact hs.after_setErr rfl

theorem AccessNext.legalState {s t : State} (hs : LegalState s) (h : AccessNext s t) : LegalState t := by
  cases h with
  | write r d => exact hs.after_writeReg r d
  | unmapped => exact hs.after_setErr rfl
  | read v => exact hs

/-- Every command keeps the invariant: LOCK locks a whole configuration only, and PROCESS cannot miss its key. -/
theorem CommandNext.legalState {c : Instr} {s t : State} (hs : LegalState s) (h : CommandNext s c t) :
    LegalState t := by
  have ⟨hst, herr, hlock⟩ := hs
  cases h with
  | nop => exact hs
  | clear => exact ⟨zero_mem_legalStatuses, herr, hlock⟩
  | badCommand => exact ⟨finish_status_mem_legalStatuses (by decide) _, reserved_zero_or herr rfl, hlock⟩
  | failed _ hcode => exact ⟨finish_status_mem_legalStatuses (legalEndings_of_failures hcode) _, herr, hlock⟩
  | keyMissing hl hk => exact absurd (hlock hl).2 hk
  | lock hsig hkey => exact ⟨finish_status_mem_legalStatuses (by decide) _, herr, fun _ => ⟨hsig, hkey⟩⟩
  | alreadyLocked | filter | encrypt | decrypt | extract | decode | process =>
    exact ⟨finish_status_mem_legalStatuses (by decide) _, herr, hlock⟩

/-- Reset leaves a legal state, whatever the host has still to do and has read (R250, R251). -/
theorem legalState_resetBlock (s : State) : LegalState (resetBlock s) :=
  ⟨zero_mem_legalStatuses, BitVec.zero_and, nofun⟩

/-- Settles O34, by the three things a step can do; an instruction is a command or a host access that runs none. -/
theorem stepKeepsLegalState : Obligations.StepKeepsLegalState := by
  intro s t hs h
  rcases step_next h with ⟨-, ⟨-, rfl⟩ | ⟨rest, -, rfl⟩ | ⟨item, rest, i, -, -, hx⟩⟩
  · exact hs
  · exact legalState_resetBlock _
  · have hw : LegalState (withProgram rest s) := hs
    rcases exec_next hx with ⟨c, -, hn⟩ | ⟨-, hn⟩
    · exact hn.legalState hw
    · exact hn.legalState hw

/-! The registers that commands alone write. -/

/-- The registers that no host access writes but through a command (R24, R27, R32 to R34). -/
structure KeepsCommandRegisters (s t : State) : Prop where
  status : t.status = s.status
  decCount : t.decCount = s.decCount
  resTemp : t.resTemp = s.resTemp
  resHum : t.resHum = s.resHum
  resBatt : t.resBatt = s.resBatt

theorem keepsCommandRegisters_writeReg (r : Reg) (d : Byte) (s : State) :
    KeepsCommandRegisters s (writeReg r d s) := by
  cases r with
  | sig i | key i =>
    rw [writeReg]
    split <;> exact ⟨rfl, rfl, rfl, rfl, rfl⟩
  | _ => exact ⟨rfl, rfl, rfl, rfl, rfl⟩

theorem AccessNext.keepsCommandRegisters {s t : State} (h : AccessNext s t) : KeepsCommandRegisters s t := by
  cases h with
  | write r d => exact keepsCommandRegisters_writeReg r d s
  | unmapped | read => exact ⟨rfl, rfl, rfl, rfl, rfl⟩

/-- A command advances DEC_COUNT by one exactly when it completed the inverse cipher (R27). -/
theorem CommandNext.decCount_eq {c : Instr} {s t : State} (h : CommandNext s c t) :
    t.decCount = s.decCount +
      if c ∈ [Instr.decrypt, .decode, .process] ∧ statusDecrun t.status = true then 1#8 else 0#8 := by
  cases h with
  | decrypt | decode | process => simp
  | nop | clear => simp [clearResult]
  | badCommand | failed | keyMissing | alreadyLocked | lock | filter | encrypt | extract => simp

/-- Settles O37: a command counts as `CommandNext.decCount_eq` says, any other host access leaves the count, and
DEC_COUNT is a read-only register. -/
theorem decCountCountsInverseCiphers : Obligations.DecCountCountsInverseCiphers := by
  refine ⟨fun i s t h => ?_, fun s d => ⟨?_, ?_⟩, rfl⟩
  · rcases exec_next h with ⟨c, hc, hn⟩ | ⟨hc, hn⟩
    · simpa [hc] using hn.decCount_eq
    · simp [hc, hn.keepsCommandRegisters.decCount]
  · exact readReturns_address (r := .decCount) rfl
  · exact writeGives_address (r := .decCount) nofun s d

/-- A command leaves the result registers, zeroes them (CLEAR), or makes them the fields of the BLK it leaves (R187,
R203). -/
theorem CommandNext.record_cases {c : Instr} {s t : State} (h : CommandNext s c t) :
    (t.resTemp = s.resTemp ∧ t.resHum = s.resHum ∧ t.resBatt = s.resBatt) ∨
    (c = .clear ∧ t.resTemp = 0#16 ∧ t.resHum = 0#16 ∧ t.resBatt = 0#8) ∨
    (c ∈ [Instr.extract, .decode, .process] ∧ statusRec t.status = true ∧
      t.resTemp = be16 t.blk[0] t.blk[1] ∧ t.resHum = be16 t.blk[2] t.blk[3] ∧ t.resBatt = t.blk[4]) := by
  cases h with
  | clear => exact .inr (.inl ⟨rfl, rfl, rfl, rfl⟩)
  | extract | decode | process => exact .inr (.inr ⟨by simp, by simp, rfl, rfl, rfl⟩)
  | _ => exact .inl ⟨rfl, rfl, rfl⟩

/-- Settles O38: the three ways of `CommandNext.record_cases`; no other host access writes a result register. -/
theorem resultRegistersChangeTogether : Obligations.ResultRegistersChangeTogether := by
  intro i s t h
  rcases exec_next h with ⟨c, hc, hn⟩ | ⟨-, hn⟩
  · simpa [hc] using hn.record_cases
  · have hk := hn.keepsCommandRegisters
    exact .inl ⟨hk.resTemp, hk.resHum, hk.resBatt⟩

/-- NOP leaves the state as it is (R204). -/
theorem CommandNext.eq_of_nop {s t : State} (h : CommandNext s .nop t) : t = s := by
  cases h with
  | nop => rfl
  | badCommand hc => cases hc
  | failed hc => exact absurd hc (by decide)

/-- Settles O39: without a command the registers of the commands stay, and NOP changes nothing. -/
theorem statusWrittenOnlyByCommands : Obligations.StatusWrittenOnlyByCommands := by
  intro i s t h hi
  rcases exec_next h with ⟨c, hc, hn⟩ | ⟨-, hn⟩
  · obtain rfl : c = .nop := by simpa [hc] using hi
    rw [hn.eq_of_nop]
  · exact hn.keepsCommandRegisters.status

/-- Settles O42: each way a command can end writes none of these, but for its own exception. -/
theorem commandsKeepFrameAndConfiguration : Obligations.CommandsKeepFrameAndConfiguration := by
  intro i c s t hi h
  rcases exec_next h with ⟨c', hc, hn⟩ | ⟨hc, -⟩
  · obtain rfl : c' = c := Option.some.inj (hc.symm.trans hi)
    cases hn with
    | badCommand hr =>
      exact ⟨rfl, rfl, rfl, rfl, rfl, rfl, rfl, rfl, rfl, fun _ => rfl, fun hn => absurd (hr.symm.trans hn) nofun,
        fun _ => rfl⟩
    | lock =>
      exact ⟨rfl, rfl, rfl, rfl, rfl, rfl, rfl, rfl, rfl, fun hne => absurd rfl hne, fun _ => rfl, fun _ => rfl⟩
    | clear =>
      exact ⟨rfl, rfl, rfl, rfl, rfl, rfl, rfl, rfl, rfl, fun _ => rfl, fun _ => rfl, fun hne => absurd rfl hne⟩
    | _ => exact ⟨rfl, rfl, rfl, rfl, rfl, rfl, rfl, rfl, rfl, fun _ => rfl, fun _ => rfl, fun _ => rfl⟩
  · exact absurd (hc.symm.trans hi) nofun

end Sys2Proof.Machine

/-! Two states that differ only in bytes that hold no value stay so under every step (R70, R145). -/

namespace Sys2Proof.Machine

/-- Two byte arrays that agree wherever a byte has been written. -/
def AgreeWhere {n : Nat} (w : BitVec n) (x y : Vector Byte n) : Prop :=
  ∀ i : Fin n, w.getLsbD i = true → x[i] = y[i]

/-- A state with other bytes stored in its four arrays. -/
def withArrays (sig : Signature) (key blk : Block) (frame : FrameBytes) (s : State) : State :=
  { s with sig := sig, key := key, blk := blk, frame := frame }

/-- The relation of the obligation, as one state whose arrays are replaced. -/
theorem agreeOnWritten_iff {s t : State} : AgreeOnWritten s t ↔
    ∃ sig key blk frame, t = withArrays sig key blk frame s ∧ AgreeWhere s.sigW s.sig sig ∧
      AgreeWhere s.keyW s.key key ∧ AgreeWhere s.blkW s.blk blk ∧ AgreeWhere s.frameW s.frame frame := by
  constructor
  · rintro ⟨ht, hsig, hkey, hblk, hframe⟩
    exact ⟨t.sig, t.key, t.blk, t.frame, ht, hsig, hkey, hblk, hframe⟩
  · rintro ⟨sig, key, blk, frame, rfl, hsig, hkey, hblk, hframe⟩
    exact ⟨rfl, hsig, hkey, hblk, hframe⟩

theorem agreeWhere_refl {n : Nat} (w : BitVec n) (x : Vector Byte n) : AgreeWhere w x x := fun _ _ => rfl

theorem agreeOnWritten_refl (s : State) : AgreeOnWritten s s :=
  ⟨rfl, agreeWhere_refl _ _, agreeWhere_refl _ _, agreeWhere_refl _ _, agreeWhere_refl _ _⟩

/-- What does not look at the arrays is the same of both states. -/
theorem AgreeOnWritten.congr {α : Type} {s t : State} (h : AgreeOnWritten s t) (f : State → α)
    (hf : ∀ sig key blk frame, f (withArrays sig key blk frame s) = f s) : f t = f s := by
  obtain ⟨sig, key, blk, frame, rfl, -⟩ := agreeOnWritten_iff.1 h
  exact hf sig key blk frame

/-- An update that does not look at the arrays, writes none of them and marks nothing written keeps the relation. -/
theorem AgreeOnWritten.map {s t : State} (h : AgreeOnWritten s t) (up : State → State)
    (hup : ∀ sig key blk frame, up (withArrays sig key blk frame s) = withArrays sig key blk frame (up s))
    (hsigW : (up s).sigW = s.sigW) (hkeyW : (up s).keyW = s.keyW) (hblkW : (up s).blkW = s.blkW)
    (hframeW : (up s).frameW = s.frameW) : AgreeOnWritten (up s) (up t) := by
  have hself : up s = withArrays s.sig s.key s.blk s.frame (up s) := hup s.sig s.key s.blk s.frame
  obtain ⟨sig, key, blk, frame, rfl, hsig, hkey, hblk, hframe⟩ := agreeOnWritten_iff.1 h
  refine agreeOnWritten_iff.2 ⟨sig, key, blk, frame, hup sig key blk frame, ?_⟩
  rw [hsigW, hkeyW, hblkW, hframeW, hself]
  exact ⟨hsig, hkey, hblk, hframe⟩

/-- A byte stored in both arrays is written in both, and the same. -/
theorem AgreeWhere.set {n : Nat} {w : BitVec n} {x y : Vector Byte n} (h : AgreeWhere w x y) (i : Fin n) (d : Byte) :
    AgreeWhere (markWritten w i) (x.set i d) (y.set i d) := by
  intro j hj
  rw [markWritten_getLsbD w i j i.isLt, Bool.or_eq_true, decide_eq_true_eq] at hj
  simp only [Fin.getElem_fin, Vector.getElem_set]
  split
  · rfl
  · rename_i hne
    exact h j (hj.resolve_right fun he => hne he.symm)

/-- Arrays that agree agree on a range whose bytes have all been written. -/
theorem AgreeWhere.getElem_eq {n : Nat} {w : BitVec n} {x y : Vector Byte n} (h : AgreeWhere w x y)
    {start count : Nat} (hw : AllWritten w start count) {i : Nat} (hi : i < n) (hlo : start ≤ i)
    (hhi : i < start + count) : x[i] = y[i] :=
  h ⟨i, hi⟩ (hw i hlo hhi)

/-- Arrays that agree are equal once every byte has been written. -/
theorem AgreeWhere.eq_of_allWritten {n : Nat} {w : BitVec n} {x y : Vector Byte n} (h : AgreeWhere w x y)
    (hw : AllWritten w 0 n) : x = y :=
  Vector.ext fun i hi => h.getElem_eq hw hi (Nat.zero_le i) (by omega)

/-- A read depends on its value only where every byte it needs has been written. -/
theorem readRange_congr {α : Type} {n : Nat} {array : ByteArrayName} {w : BitVec n} {start count : Nat} {u v : α}
    (h : AllWritten w start count → u = v) : readRange array w start count u = readRange array w start count v := by
  rcases readRange_cases array w start count u with ⟨hw, -⟩ | ⟨k, hk, he⟩
  · rw [h hw]
  · rw [he, readRange_of_firstHole hk]

/-- Byte `i` of the candidate signature is frame byte `2 + i` (R113). -/
theorem candidateOf_getElem (f : FrameBytes) (i : Fin 6) : (candidateOf f)[i] = f[2 + i.val] := by
  fin_cases i <;> rfl

/-- Byte `i` of the candidate CipherBlock is frame byte `8 + i` (R115). -/
theorem ciphertextOf_getElem (f : FrameBytes) (i : Fin 16) : (ciphertextOf f)[i] = f[8 + i.val] := by
  fin_cases i <;> rfl

section Agreement
variable {s t : State} (h : AgreeOnWritten s t)
include h

/-! What a command or a host access reads is the same, or stops at the same byte. -/

theorem AgreeOnWritten.readBlk_eq : readBlk t = readBlk s := by
  obtain ⟨sig, key, blk, frame, rfl, -, -, hblk, -⟩ := agreeOnWritten_iff.1 h
  exact readRange_congr fun hw => (hblk.eq_of_allWritten hw).symm

theorem AgreeOnWritten.readSignature_eq : readSignature t = readSignature s := by
  obtain ⟨sig, key, blk, frame, rfl, hsig, -, -, -⟩ := agreeOnWritten_iff.1 h
  exact readRange_congr fun hw => (hsig.eq_of_allWritten hw).symm

theorem AgreeOnWritten.readCandidate_eq : readCandidate t = readCandidate s := by
  obtain ⟨sig, key, blk, frame, rfl, -, -, -, hframe⟩ := agreeOnWritten_iff.1 h
  refine readRange_congr fun (hw : AllWritten s.frameW 2 6) => Vector.ext fun i hi => ?_
  have hb : s.frame[2 + i] = frame[2 + i] := hframe.getElem_eq hw (by omega) (by omega) (by omega)
  exact (candidateOf_getElem frame ⟨i, hi⟩).trans (hb.symm.trans (candidateOf_getElem s.frame ⟨i, hi⟩).symm)

theorem AgreeOnWritten.readCiphertext_eq : readCiphertext t = readCiphertext s := by
  obtain ⟨sig, key, blk, frame, rfl, -, -, -, hframe⟩ := agreeOnWritten_iff.1 h
  refine readRange_congr fun (hw : AllWritten s.frameW 8 16) => Vector.ext fun i hi => ?_
  have hb : s.frame[8 + i] = frame[8 + i] := hframe.getElem_eq hw (by omega) (by omega) (by omega)
  exact (ciphertextOf_getElem frame ⟨i, hi⟩).trans (hb.symm.trans (ciphertextOf_getElem s.frame ⟨i, hi⟩).symm)

theorem AgreeOnWritten.extractFn_eq : extractFn t = extractFn s := by
  obtain ⟨sig, key, blk, frame, rfl, -, -, hblk, -⟩ := agreeOnWritten_iff.1 h
  refine readRange_congr fun (hw : AllWritten s.blkW 0 5) => ?_
  have hb {i : Nat} (hi : i < 5) : blk[i] = s.blk[i] :=
    (hblk.getElem_eq hw (by omega) (Nat.zero_le i) (by omega)).symm
  change recordOf blk = recordOf s.blk
  rw [recordOf, recordOf, hb (i := 0) (by decide), hb (i := 1) (by decide), hb (i := 2) (by decide),
    hb (i := 3) (by decide), hb (i := 4) (by decide)]

theorem AgreeOnWritten.filterFn_eq : filterFn t = filterFn s := by
  have hlen : t.frameLen = s.frameLen := h.congr State.frameLen fun _ _ _ _ => rfl
  rw [filterFn, filterFn, hlen, h.readCandidate_eq, h.readSignature_eq, h.readCiphertext_eq]

theorem AgreeOnWritten.readReg_eq (r : Reg) : readReg r t = readReg r s := by
  obtain ⟨sig, key, blk, frame, rfl, hsig, -, hblk, hframe⟩ := agreeOnWritten_iff.1 h
  cases r with
  | sig i => exact readRange_congr fun hw => (hsig i (hw i (le_refl _) (Nat.lt_succ_self _))).symm
  | blk i => exact readRange_congr fun hw => (hblk i (hw i (le_refl _) (Nat.lt_succ_self _))).symm
  | frame i => exact readRange_congr fun hw => (hframe i (hw i (le_refl _) (Nat.lt_succ_self _))).symm
  | _ => rfl

theorem AgreeOnWritten.hostRead_eq (a : Byte) : hostRead a t = hostRead a s := by
  cases hr : regAt a with
  | none => rw [hostRead_of_unmapped hr, hostRead_of_unmapped hr]
  | some r => rw [hostRead_of_regAt hr, hostRead_of_regAt hr, h.readReg_eq]

theorem AgreeOnWritten.locked_eq : t.locked = s.locked :=
  h.congr State.locked fun _ _ _ _ => rfl

theorem AgreeOnWritten.program_eq : t.program = s.program :=
  h.congr State.program fun _ _ _ _ => rfl

theorem AgreeOnWritten.keyComplete_eq : keyComplete t = keyComplete s :=
  h.congr keyComplete fun _ _ _ _ => rfl

theorem AgreeOnWritten.sigComplete_eq : sigComplete t = sigComplete s :=
  h.congr sigComplete fun _ _ _ _ => rfl

/-- The cipher uses KEY only when it is complete, and then the two keys are one (R145). -/
theorem AgreeOnWritten.key_eq (hk : keyComplete s = true) : t.key = s.key := by
  obtain ⟨sig, key, blk, frame, rfl, -, hkey, -, -⟩ := agreeOnWritten_iff.1 h
  have hw : AllWritten s.keyW 0 16 := by
    rw [keyComplete_eq_true.1 hk]
    exact allWritten_allOnes (le_refl 16)
  exact (hkey.eq_of_allWritten hw).symm

/-! Every named update keeps the relation: it writes the same to both states, and what it stores counts as written. -/

theorem AgreeOnWritten.finish (c : ResultCode) (sc dr rc : Bool) :
    AgreeOnWritten (finish c sc dr rc s) (finish c sc dr rc t) :=
  h.map (Machine.finish c sc dr rc) (fun _ _ _ _ => rfl) rfl rfl rfl rfl

theorem AgreeOnWritten.setErr (bit : Byte) : AgreeOnWritten (setErr bit s) (setErr bit t) :=
  h.map (Machine.setErr bit) (fun _ _ _ _ => rfl) rfl rfl rfl rfl

theorem AgreeOnWritten.setLocked : AgreeOnWritten (setLocked s) (setLocked t) :=
  h.map Machine.setLocked (fun _ _ _ _ => rfl) rfl rfl rfl rfl

theorem AgreeOnWritten.setBlk (b : Block) : AgreeOnWritten (setBlk b s) (setBlk b t) := by
  obtain ⟨sig, key, blk, frame, rfl, hsig, hkey, -, hframe⟩ := agreeOnWritten_iff.1 h
  exact ⟨rfl, hsig, hkey, agreeWhere_refl _ _, hframe⟩

theorem AgreeOnWritten.countDecryption : AgreeOnWritten (countDecryption s) (countDecryption t) :=
  h.map Machine.countDecryption (fun _ _ _ _ => rfl) rfl rfl rfl rfl

theorem AgreeOnWritten.storeRecord (r : TelemetryRecord) : AgreeOnWritten (storeRecord r s) (storeRecord r t) :=
  h.map (Machine.storeRecord r) (fun _ _ _ _ => rfl) rfl rfl rfl rfl

theorem AgreeOnWritten.clearResult : AgreeOnWritten (clearResult s) (clearResult t) := by
  obtain ⟨sig, key, blk, frame, rfl, hsig, hkey, -, hframe⟩ := agreeOnWritten_iff.1 h
  exact ⟨rfl, hsig, hkey, agreeWhere_refl _ _, hframe⟩

theorem AgreeOnWritten.recordRead (v : Byte) : AgreeOnWritten (recordRead v s) (recordRead v t) :=
  h.map (Machine.recordRead v) (fun _ _ _ _ => rfl) rfl rfl rfl rfl

theorem AgreeOnWritten.withProgram (p : List HostEvent) : AgreeOnWritten (withProgram p s) (withProgram p t) :=
  h.map (Machine.withProgram p) (fun _ _ _ _ => rfl) rfl rfl rfl rfl

/-- Reset forgets all that the two states differ in (R251). -/
theorem AgreeOnWritten.resetBlock : AgreeOnWritten (resetBlock s) (resetBlock t) := by
  rw [h.congr Machine.resetBlock fun _ _ _ _ => rfl]
  exact agreeOnWritten_refl _

theorem AgreeOnWritten.completeInvCipher (hk : keyComplete s = true) (y : Block) :
    AgreeOnWritten (completeInvCipher y s) (completeInvCipher y t) := by
  rw [Machine.completeInvCipher, Machine.completeInvCipher, h.key_eq hk]
  exact (h.setBlk _).countDecryption

theorem AgreeOnWritten.storeAccepted (v : FilterVerdict) :
    AgreeOnWritten (storeAccepted v s) (storeAccepted v t) := by
  cases v with
  | accepted ct => exact h.setBlk ct
  | tooShort | signatureMismatch | badCiphertextLength => exact h

/-- A host write of a register byte keeps the relation; while locked the arrays are not written (R62, R71). -/
theorem AgreeOnWritten.writeReg (r : Reg) (d : Byte) : AgreeOnWritten (writeReg r d s) (writeReg r d t) := by
  have hlocked := h.locked_eq
  obtain ⟨sig, key, blk, frame, rfl, hsig, hkey, hblk, hframe⟩ := agreeOnWritten_iff.1 h
  cases r with
  | sig i =>
    rw [Machine.writeReg, Machine.writeReg, hlocked]
    split
    · exact h.setErr _
    · exact ⟨rfl, hsig.set i d, hkey, hblk, hframe⟩
  | key i =>
    rw [Machine.writeReg, Machine.writeReg, hlocked]
    split
    · exact h.setErr _
    · exact ⟨rfl, hsig, hkey.set i d, hblk, hframe⟩
  | blk i => exact ⟨rfl, hsig, hkey, hblk.set i d, hframe⟩
  | frame i => exact ⟨rfl, hsig, hkey, hblk, hframe.set i d⟩
  | _ => exact ⟨rfl, hsig, hkey, hblk, hframe⟩

/-! Every command and every host access keeps the relation, or faults alike. -/

theorem AgreeOnWritten.execFilter : OutcomesAgree (execFilter s) (execFilter t) := by
  rw [Machine.execFilter, Machine.execFilter, h.locked_eq, h.filterFn_eq]
  split
  · exact h.finish _ _ _ _
  · cases filterFn s with
    | error f => rfl
    | ok v => exact (h.storeAccepted v).finish _ _ _ _

theorem AgreeOnWritten.execDecrypt : OutcomesAgree (execDecrypt s) (execDecrypt t) := by
  rw [Machine.execDecrypt, Machine.execDecrypt, h.keyComplete_eq, h.readBlk_eq]
  cases hk : keyComplete s with
  | false => exact h.finish _ _ _ _
  | true =>
    cases readBlk s with
    | error f => rfl
    | ok y => exact (h.completeInvCipher hk y).finish _ _ _ _

theorem AgreeOnWritten.execEncrypt : OutcomesAgree (execEncrypt s) (execEncrypt t) := by
  rw [Machine.execEncrypt, Machine.execEncrypt, h.keyComplete_eq, h.readBlk_eq]
  cases hk : keyComplete s with
  | false => exact h.finish _ _ _ _
  | true =>
    rw [h.key_eq hk]
    cases readBlk s with
    | error f => rfl
    | ok x => exact (h.setBlk _).finish _ _ _ _

theorem AgreeOnWritten.extractAndFinish (sc dr : Bool) :
    OutcomesAgree (extractAndFinish sc dr s) (extractAndFinish sc dr t) := by
  rw [Machine.extractAndFinish, Machine.extractAndFinish, h.extractFn_eq]
  cases extractFn s with
  | error f => rfl
  | ok r => exact (h.storeRecord r).finish _ _ _ _

theorem AgreeOnWritten.execDecode : OutcomesAgree (execDecode s) (execDecode t) := by
  rw [Machine.execDecode, Machine.execDecode, h.keyComplete_eq, h.readBlk_eq]
  cases hk : keyComplete s with
  | false => exact h.finish _ _ _ _
  | true =>
    cases readBlk s with
    | error f => rfl
    | ok y => exact (h.completeInvCipher hk y).extractAndFinish _ _

theorem AgreeOnWritten.execProcess : OutcomesAgree (execProcess s) (execProcess t) := by
  rw [Machine.execProcess, Machine.execProcess, h.locked_eq, h.filterFn_eq, h.keyComplete_eq]
  split
  · exact h.finish _ _ _ _
  · cases filterFn s with
    | error f => rfl
    | ok v =>
      cases v with
      | accepted ct =>
        cases hk : keyComplete s with
        | false => exact h.finish _ _ _ _
        | true => exact (h.completeInvCipher hk ct).extractAndFinish _ _
      | tooShort | signatureMismatch | badCiphertextLength => exact h.finish _ _ _ _

theorem AgreeOnWritten.execLock : OutcomesAgree (execLock s) (execLock t) := by
  rw [Machine.execLock, Machine.execLock, h.locked_eq, h.sigComplete_eq, h.keyComplete_eq]
  split
  · exact h.finish _ _ _ _
  · split
    · exact h.setLocked.finish _ _ _ _
    · exact h.finish _ _ _ _

theorem AgreeOnWritten.badCommand : OutcomesAgree (badCommand s) (badCommand t) :=
  (h.setErr errBadCmd).finish _ _ _ _

/-- `Execute` of every opcode keeps the relation (R93, R94). -/
theorem AgreeOnWritten.execute (d : Byte) : OutcomesAgree (execute d s) (execute d t) := by
  rcases opcode_cases d with ⟨n, rfl⟩ | hd
  · fin_cases n
    · exact h
    · exact h.execFilter
    · exact h.execDecrypt
    · exact h.execEncrypt
    · exact h.extractAndFinish false false
    · exact h.execDecode
    · exact h.execProcess
    · exact h.execLock
    · exact h.clearResult
  · rw [execute_of_le hd, execute_of_le hd]
    exact h.badCommand

theorem AgreeOnWritten.execHtxRd (a : Byte) : OutcomesAgree (execHtxRd a s) (execHtxRd a t) := by
  rw [Machine.execHtxRd, Machine.execHtxRd, h.hostRead_eq]
  cases hostRead a s with
  | error f => rfl
  | ok v => exact h.recordRead v

theorem AgreeOnWritten.execHtxWr (a d : Byte) : OutcomesAgree (execHtxWr a d s) (execHtxWr a d t) := by
  cases hr : regAt a with
  | none =>
    rw [execHtxWr_of_unmapped hr, execHtxWr_of_unmapped hr]
    exact h.setErr errBadAccess
  | some r =>
    by_cases hcmd : r = .cmd
    · subst hcmd
      obtain rfl : 0x00#8 = a := address_of_regAt hr
      exact h.execute d
    · rw [execHtxWr_of_regAt hr hcmd, execHtxWr_of_regAt hr hcmd]
      exact h.writeReg r d

theorem AgreeOnWritten.exec (i : Instr) : OutcomesAgree (exec i s) (exec i t) := by
  cases i with
  | nop => exact h
  | filter => exact h.execFilter
  | decrypt => exact h.execDecrypt
  | encrypt => exact h.execEncrypt
  | extract => exact h.extractAndFinish false false
  | decode => exact h.execDecode
  | process => exact h.execProcess
  | lock => exact h.execLock
  | clear => exact h.clearResult
  | htxWr a d => exact h.execHtxWr a d
  | htxRd a => exact h.execHtxRd a
  | _ => exact h.badCommand

end Agreement

/-- Settles O44: both states fetch the same event, and whatever it is keeps the relation or stops alike. -/
theorem unwrittenBytesNeverObserved : Obligations.UnwrittenBytesNeverObserved := by
  intro s t h
  rw [step, step, h.program_eq]
  cases fetch s.program with
  | idle => exact h
  | reset rest => exact (h.withProgram rest).resetBlock
  | run i rest => exact (h.withProgram rest).exec i
  | illegal why position => rfl

end Sys2Proof.Machine

/-! Host reads and writes by register byte: what each returns or leaves, and what it does not touch (R60 to R73). -/

namespace Sys2Proof.Machine

/-! Registers as the host sees them (R61, R64). -/

/-- CTRL bit by bit (R25, R61). -/
theorem ctrlByte_eq (s : State) :
    ctrlByte s = (if s.locked then 0x02#8 else 0x00#8) ||| (if s.verbose then 0x01#8 else 0x00#8) := by
  rw [ctrlByte]
  cases s.locked <;> cases s.verbose <;> rfl

/-- `BE16` puts its two bytes side by side (R10). -/
theorem be16_eq_append (h l : Byte) : be16 h l = h ++ l := by
  apply BitVec.eq_of_toNat_eq
  rw [be16_toNat, BitVec.toNat_append, ← Nat.shiftLeft_add_eq_or_of_lt l.isLt, Nat.shiftLeft_eq, Nat.mul_comm]

/-- A 16-bit register is the big-endian number of the two bytes it reads as (R64). -/
theorem highByte_lowByte_toNat (v : HalfWord) : 256 * (highByte v).toNat + (lowByte v).toNat = v.toNat := by
  rw [← be16_toNat, be16_high_low]

/-! Host reads (R61). -/

/-- A host read of a register byte that holds no value is the fault of that byte (R61, R70). -/
theorem exec_htxRd_address_of_error {r : Reg} {s : State} {f : Fault} (h : readReg r s = .error f) :
    exec (.htxRd r.address) s = .fault f :=
  execHtxRd_of_error ((hostRead_of_regAt (regAt_address r)).trans h)

theorem readReturns_of_unmapped {a : Byte} (h : regAt a = none) (s : State) : ReadReturns s a 0x00#8 :=
  execHtxRd_of_ok (hostRead_of_unmapped h)

/-- What a host read of a byte that may hold no value does: its written-bit decides (R70). -/
theorem htxRd_of_readReg_eq_ite {r : Reg} {s : State} {w : Bool} {v : Byte} {f : Fault}
    (h : readReg r s = if w then .ok v else .error f) :
    (w = true → ReadReturns s r.address v) ∧ (w = false → exec (.htxRd r.address) s = .fault f) := by
  constructor
  · rintro rfl
    exact readReturns_address h
  · rintro rfl
    exact exec_htxRd_address_of_error h

/-- Settles O24: every address is that of one register byte, whose value R61 gives, or is unmapped. -/
theorem hostReadValues : Obligations.HostReadValues := by
  intro s
  have rd {r : Reg} {v : Byte} (h : readReg r s = .ok v) : ReadReturns s r.address v := readReturns_address h
  refine ⟨rd (r := .cmd) rfl, rd (r := .status) rfl, ?ctrl, rd (r := .err) rfl, rd (r := .decCount) rfl,
    rd (r := .frameLenH) rfl, rd (r := .frameLenL) rfl, rd (r := .sigValid) rfl, rd (r := .keyValidH) rfl,
    rd (r := .keyValidL) rfl, rd (r := .resTempH) rfl, rd (r := .resTempL) rfl, rd (r := .resHumH) rfl,
    rd (r := .resHumL) rfl, rd (r := .resBatt) rfl, ?sig, ?key, ?blk, ?frame, ?unmapped⟩
  case ctrl =>
    rw [← ctrlByte_eq]
    exact rd (r := .ctrl) rfl
  case sig => exact fun i => htxRd_of_readReg_eq_ite (r := .sig i) (readSigByte_eq i s)
  case key => exact fun i => rd (r := .key i) rfl
  case blk => exact fun i => htxRd_of_readReg_eq_ite (r := .blk i) (readBlkByte_eq i s)
  case frame => exact fun i => htxRd_of_readReg_eq_ite (r := .frame i) (readFrameByte_eq i s)
  case unmapped => exact fun a ha => readReturns_of_unmapped ha s

/-! Host writes (R62). -/

/-- The register bytes a host cannot write (R69). -/
def readOnlyRegs : List Reg :=
  [.status, .decCount, .sigValid, .keyValidH, .keyValidL, .resTempH, .resTempL, .resHumH, .resHumL, .resBatt]

/-- A host write to a read-only register byte sets BAD_ACCESS alone (R69). -/
theorem writeGives_of_readOnly {r : Reg} (h : r ∈ readOnlyRegs) (s : State) (d : Byte) :
    WriteGives s r.address d (setErr errBadAccess s) := by
  have hr : r ≠ .cmd := by
    rintro rfl
    exact absurd h (by decide)
  have hw : writeReg r d s = setErr errBadAccess s := by
    cases r with
    | cmd | ctrl | err | frameLenH | frameLenL | sig | key | blk | frame => simp [readOnlyRegs] at h
    | _ => rfl
  exact hw ▸ writeGives_address hr s d

theorem writeGives_of_unmapped {a : Byte} (h : regAt a = none) (s : State) (d : Byte) :
    WriteGives s a d (setErr errBadAccess s) :=
  execHtxWr_of_unmapped h

/-- Settles O28: the read-only register bytes, and VERBOSE as the one bit of CTRL that a write reaches. -/
theorem readOnlyWritesIgnored : Obligations.ReadOnlyWritesIgnored := fun s d =>
  ⟨fun _ hr => writeGives_of_readOnly hr s d, writeGives_address (r := .ctrl) nofun s d⟩

/-- Settles O25: CMD by the opcode map, every other mapped address by the write of its register byte. -/
theorem hostWriteEffects : Obligations.HostWriteEffects := by
  intro s d
  refine ⟨execute_eq_exec_decodeCmd8 d s, writeGives_address (r := .ctrl) nofun s d,
    writeGives_address (r := .err) nofun s d, ?high, ?low, ?readOnly,
    fun i => writeGives_address (r := .sig i) nofun s d, fun i => writeGives_address (r := .key i) nofun s d,
    fun i => writeGives_address (r := .blk i) nofun s d, fun i => writeGives_address (r := .frame i) nofun s d,
    fun a ha => writeGives_of_unmapped ha s d⟩
  case high =>
    rw [← be16_eq_append]
    exact writeGives_address (r := .frameLenH) nofun s d
  case low =>
    rw [← be16_eq_append]
    exact writeGives_address (r := .frameLenL) nofun s d
  case readOnly =>
    intro a ha
    obtain ⟨r, hr, rfl⟩ : ∃ r ∈ readOnlyRegs, r.address = a := List.mem_map.1 ha
    exact writeGives_of_readOnly hr s d

/-! The unmapped addresses (R68). -/

/-- No register byte lies in the ranges that R68 lists. -/
theorem regAt_eq_none {a : Byte}
    (h : a.toNat = 0x05 ∨ a.toNat = 0x09 ∨ (0x0C ≤ a.toNat ∧ a.toNat ≤ 0x0F) ∨ (0x15 ≤ a.toNat ∧ a.toNat ≤ 0x1F) ∨
      (0x26 ≤ a.toNat ∧ a.toNat ≤ 0x2F) ∨ (0x50 ≤ a.toNat ∧ a.toNat ≤ 0x5F) ∨ 0x78 ≤ a.toNat) : regAt a = none := by
  cases hr : regAt a with
  | none => rfl
  | some r =>
    exfalso
    obtain rfl := address_of_regAt hr
    cases r with
    | sig i | key i | blk i | frame i =>
      simp only [Reg.address, BitVec.toNat_ofNat] at h
      omega
    | _ => exact absurd h (by decide)

/-- Settles O27: no register byte is there, and R61 and R62 say what that means. -/
theorem unmappedAddresses : Obligations.UnmappedAddresses := fun s _ d h =>
  have hnone := regAt_eq_none h
  ⟨hnone, readReturns_of_unmapped hnone s, writeGives_of_unmapped hnone s d⟩

end Sys2Proof.Machine

/-! Configuration writes, the 16-bit registers, and the frame of a host write (R62, R64, R67, R71, R73). -/

namespace Sys2Proof.Machine

/-! One byte of an array, stored and read back. -/

/-- A written-bit set twice is set once. -/
@[simp] theorem markWritten_markWritten {n : Nat} (w : BitVec n) (i : Nat) :
    markWritten (markWritten w i) i = markWritten w i := by
  rw [markWritten, markWritten, BitVec.or_assoc, BitVec.or_self]

/-- The last of two writes of one SIG byte holds, as if alone (R71). -/
@[simp] theorem storeSig_storeSig (i : Fin 6) (d e : Byte) (s : State) :
    storeSig i e (storeSig i d s) = storeSig i e s := by
  simp [storeSig]

/-- The last of two writes of one KEY byte holds, as if alone (R71). -/
@[simp] theorem storeKey_storeKey (i : Fin 16) (d e : Byte) (s : State) :
    storeKey i e (storeKey i d s) = storeKey i e s := by
  simp [storeKey]

/-- A byte just stored reads back. -/
theorem readRange_markWritten_same {n : Nat} (array : ByteArrayName) (w : BitVec n) (x : Vector Byte n) (i : Fin n)
    (d : Byte) : readRange array (markWritten w i) i 1 (x.set i d)[i] = .ok d := by
  simp [readRange_one, markWritten_getLsbD w i i i.isLt]

/-- Storing one byte leaves every other byte of the array as it was, value and written-bit. -/
theorem readRange_markWritten_other {n : Nat} (array : ByteArrayName) (w : BitVec n) (x : Vector Byte n) {i j : Fin n}
    (h : j ≠ i) (d : Byte) : readRange array (markWritten w i) j 1 (x.set i d)[j] = readRange array w j 1 x[j] := by
  have hval : j.val ≠ i.val := fun he => h (Fin.ext he)
  have hbit : (markWritten w i).getLsbD j = w.getLsbD j := by
    rw [markWritten_getLsbD w i j i.isLt, decide_eq_false hval, Bool.or_false]
  have hbyte : (x.set i d)[j] = x[j] := Vector.getElem_set_ne i.isLt j.isLt hval.symm
  rw [readRange_one, readRange_one, hbit, hbyte]

/-! Configuration writes (R71). -/

theorem writeReg_sig_of_locked {s : State} (h : s.locked = true) (i : Fin 6) (d : Byte) :
    writeReg (.sig i) d s = setErr errLockedWrite s := if_pos h

theorem writeReg_key_of_locked {s : State} (h : s.locked = true) (i : Fin 16) (d : Byte) :
    writeReg (.key i) d s = setErr errLockedWrite s := if_pos h

theorem writeReg_sig_of_unlocked {s : State} (h : s.locked = false) (i : Fin 6) (d : Byte) :
    writeReg (.sig i) d s = storeSig i d s := if_neg (by simp [h])

theorem writeReg_key_of_unlocked {s : State} (h : s.locked = false) (i : Fin 16) (d : Byte) :
    writeReg (.key i) d s = storeKey i d s := if_neg (by simp [h])

/-- A write to the address of a register byte, with the state it leaves given by name. -/
theorem writeGives_of_writeReg {r : Reg} {s t : State} {d : Byte} (hr : r ≠ .cmd) (h : writeReg r d s = t) :
    WriteGives s r.address d t :=
  h ▸ writeGives_address hr s d

/-- Settles O29: the lock decides between LOCKED_WRITE and the store, and a store leaves the block unlocked for the next. -/
theorem configurationWrites : Obligations.ConfigurationWrites := by
  refine fun s d e => ⟨fun hl => ⟨fun i => ?lockedSig, fun i => ?lockedKey⟩, fun hl => ⟨fun i => ?sig, fun i => ?key⟩⟩
  case lockedSig => exact writeGives_of_writeReg nofun (writeReg_sig_of_locked hl i d)
  case lockedKey => exact writeGives_of_writeReg nofun (writeReg_key_of_locked hl i d)
  case sig =>
    have hsecond : writeReg (.sig i) e (storeSig i d s) = storeSig i e s := by
      rw [writeReg_sig_of_unlocked (s := storeSig i d s) hl, storeSig_storeSig]
    exact ⟨storeSig i d s, storeSig i e s, writeGives_of_writeReg nofun (writeReg_sig_of_unlocked hl i d),
      writeGives_of_writeReg nofun hsecond, writeGives_of_writeReg nofun (writeReg_sig_of_unlocked hl i e), rfl,
      fun j => markWritten_getLsbD s.sigW i j i.isLt⟩
  case key =>
    have hsecond : writeReg (.key i) e (storeKey i d s) = storeKey i e s := by
      rw [writeReg_key_of_unlocked (s := storeKey i d s) hl, storeKey_storeKey]
    exact ⟨storeKey i d s, storeKey i e s, writeGives_of_writeReg nofun (writeReg_key_of_unlocked hl i d),
      writeGives_of_writeReg nofun hsecond, writeGives_of_writeReg nofun (writeReg_key_of_unlocked hl i e), rfl,
      fun j => markWritten_getLsbD s.keyW i j i.isLt⟩

/-! The 16-bit registers (R64). -/

theorem setFrameLenLow_setFrameLenHigh (h l : Byte) (s : State) :
    setFrameLenLow l (setFrameLenHigh h s) = { s with frameLen := be16 h l } := by
  simp [setFrameLenLow, setFrameLenHigh]

theorem setFrameLenHigh_setFrameLenLow (h l : Byte) (s : State) :
    setFrameLenHigh h (setFrameLenLow l s) = { s with frameLen := be16 h l } := by
  simp [setFrameLenLow, setFrameLenHigh]

/-- Two register bytes that show the two halves of `v` read as the big-endian bytes of its number (R64). -/
theorem reads_bigEndian {high low : Reg} {s : State} {v : HalfWord} (hh : readReg high s = .ok (highByte v))
    (hl : readReg low s = .ok (lowByte v)) : ∃ h l : Byte,
      ReadReturns s high.address h ∧ ReadReturns s low.address l ∧ 256 * h.toNat + l.toNat = v.toNat :=
  ⟨_, _, readReturns_address hh, readReturns_address hl, highByte_lowByte_toNat v⟩

/-- Settles O31: each byte write keeps the other half of FRAME_LEN, so either order makes `BE16` of the two. -/
theorem sixteenBitRegistersBigEndian : Obligations.SixteenBitRegistersBigEndian := by
  refine ⟨fun s h l => ⟨setFrameLenHigh h s, setFrameLenLow l s, be16 h l, be16_toNat h l,
    writeGives_address (r := .frameLenH) nofun s h,
    writeGives_of_writeReg (r := .frameLenL) nofun (setFrameLenLow_setFrameLenHigh h l s),
    writeGives_address (r := .frameLenL) nofun s l,
    writeGives_of_writeReg (r := .frameLenH) nofun (setFrameLenHigh_setFrameLenLow h l s)⟩, fun s => ?_⟩
  simp only [List.forall_mem_cons, List.not_mem_nil, false_imp_iff, implies_true, and_true]
  exact ⟨reads_bigEndian (high := .frameLenH) (low := .frameLenL) rfl rfl,
    reads_bigEndian (high := .keyValidH) (low := .keyValidL) rfl rfl,
    reads_bigEndian (high := .resTempH) (low := .resTempL) rfl rfl,
    reads_bigEndian (high := .resHumH) (low := .resHumL) rfl rfl⟩

/-! What a write leaves as the host reads it: one lemma per named update (R62). -/

theorem readReg_setErr {r : Reg} (h : r ≠ .err) (bit : Byte) (s : State) :
    readReg r (setErr bit s) = readReg r s := by
  cases r with
  | err => exact absurd rfl h
  | _ => rfl

theorem readReg_clearErr {r : Reg} (h : r ≠ .err) (d : Byte) (s : State) :
    readReg r (clearErr d s) = readReg r s := by
  cases r with
  | err => exact absurd rfl h
  | _ => rfl

theorem readReg_setVerbose {r : Reg} (h : r ≠ .ctrl) (d : Byte) (s : State) :
    readReg r (setVerbose d s) = readReg r s := by
  cases r with
  | ctrl => exact absurd rfl h
  | _ => rfl

theorem readReg_setFrameLenHigh {r : Reg} (h : r ≠ .frameLenH) (d : Byte) (s : State) :
    readReg r (setFrameLenHigh d s) = readReg r s := by
  cases r with
  | frameLenH => exact absurd rfl h
  | frameLenL => exact congrArg Except.ok (lowByte_be16 d _)
  | _ => rfl

theorem readReg_setFrameLenLow {r : Reg} (h : r ≠ .frameLenL) (d : Byte) (s : State) :
    readReg r (setFrameLenLow d s) = readReg r s := by
  cases r with
  | frameLenL => exact absurd rfl h
  | frameLenH => exact congrArg Except.ok (highByte_be16 _ d)
  | _ => rfl

theorem readReg_storeSig {r : Reg} {i : Fin 6} (h : r ≠ .sig i) (hv : r ≠ .sigValid) (d : Byte) (s : State) :
    readReg r (storeSig i d s) = readReg r s := by
  cases r with
  | sigValid => exact absurd rfl hv
  | sig j => exact readRange_markWritten_other .sig s.sigW s.sig (fun he => h (congrArg Reg.sig he)) d
  | _ => rfl

theorem readReg_storeKey {r : Reg} (hh : r ≠ .keyValidH) (hl : r ≠ .keyValidL) (i : Fin 16) (d : Byte) (s : State) :
    readReg r (storeKey i d s) = readReg r s := by
  cases r with
  | keyValidH => exact absurd rfl hh
  | keyValidL => exact absurd rfl hl
  | _ => rfl

theorem readReg_storeBlk {r : Reg} {i : Fin 16} (h : r ≠ .blk i) (d : Byte) (s : State) :
    readReg r (storeBlk i d s) = readReg r s := by
  cases r with
  | blk j => exact readRange_markWritten_other .blk s.blkW s.blk (fun he => h (congrArg Reg.blk he)) d
  | _ => rfl

theorem readReg_storeFrame {r : Reg} {i : Fin 24} (h : r ≠ .frame i) (d : Byte) (s : State) :
    readReg r (storeFrame i d s) = readReg r s := by
  cases r with
  | frame j => exact readRange_markWritten_other .frame s.frameW s.frame (fun he => h (congrArg Reg.frame he)) d
  | _ => rfl

/-- The frame of a write to register byte `q`: another register byte reads as before, but for ERR, and for the valid bits
of the array `q` is in (R62, R67). -/
theorem readReg_writeReg_other {q r : Reg} (hne : r ≠ q) (herr : r ≠ .err)
    (hsig : r = .sigValid → ∀ i, q ≠ .sig i) (hkey : r = .keyValidH ∨ r = .keyValidL → ∀ i, q ≠ .key i) (d : Byte)
    (s : State) : readReg r (writeReg q d s) = readReg r s := by
  cases q with
  | cmd => rfl
  | ctrl => exact readReg_setVerbose hne d s
  | err => exact readReg_clearErr hne d s
  | frameLenH => exact readReg_setFrameLenHigh hne d s
  | frameLenL => exact readReg_setFrameLenLow hne d s
  | sig i =>
    rw [writeReg]
    split
    · exact readReg_setErr herr _ s
    · exact readReg_storeSig hne (fun he => hsig he i rfl) d s
  | key i =>
    rw [writeReg]
    split
    · exact readReg_setErr herr _ s
    · exact readReg_storeKey (fun he => hkey (.inl he) i rfl) (fun he => hkey (.inr he) i rfl) i d s
  | blk i => exact readReg_storeBlk hne d s
  | frame i => exact readReg_storeFrame hne d s
  | _ => exact readReg_setErr herr _ s

/-! The byte arrays by address (R23). -/

theorem sig_address_bounds (i : Fin 6) : 0x20 ≤ (Reg.sig i).address.toNat ∧ (Reg.sig i).address.toNat ≤ 0x25 := by
  simp only [Reg.address, BitVec.toNat_ofNat]
  omega

theorem key_address_bounds (i : Fin 16) : 0x30 ≤ (Reg.key i).address.toNat ∧ (Reg.key i).address.toNat ≤ 0x3F := by
  simp only [Reg.address, BitVec.toNat_ofNat]
  omega

/-- A byte stored in BLK or FRAME, or in SIG while unlocked, reads back (R62, R71). -/
theorem readReg_writeReg_same {q : Reg} {s : State} (d : Byte)
    (h : (0x40 ≤ q.address.toNat ∧ q.address.toNat ≤ 0x4F) ∨ (0x60 ≤ q.address.toNat ∧ q.address.toNat ≤ 0x77) ∨
      (s.locked = false ∧ 0x20 ≤ q.address.toNat ∧ q.address.toNat ≤ 0x25)) :
    readReg q (writeReg q d s) = .ok d := by
  cases q with
  | blk i => exact readRange_markWritten_same .blk s.blkW s.blk i d
  | frame i => exact readRange_markWritten_same .frame s.frameW s.frame i d
  | sig i =>
    have hl : s.locked = false := by
      have := sig_address_bounds i
      rcases h with h | h | ⟨hl, -⟩
      · omega
      · omega
      · exact hl
    rw [writeReg_sig_of_unlocked hl]
    exact readRange_markWritten_same .sig s.sigW s.sig i d
  | key i =>
    have := key_address_bounds i
    omega
  | _ => simp [Reg.address] at h

/-- The addresses of SIG, BLK and FRAME are mapped (R23). -/
theorem regAt_ne_none_of_array {a : Byte} (h : (0x40 ≤ a.toNat ∧ a.toNat ≤ 0x4F) ∨ (0x60 ≤ a.toNat ∧ a.toNat ≤ 0x77) ∨
    (0x20 ≤ a.toNat ∧ a.toNat ≤ 0x25)) : regAt a ≠ none := by
  have mapped {k : Nat} (r : Reg) (hr : r.address = BitVec.ofNat 8 (k + (a.toNat - k))) (hk : k ≤ a.toNat) :
      regAt a ≠ none := by
    rw [Nat.add_sub_cancel' hk, BitVec.ofNat_toNat, BitVec.setWidth_eq] at hr
    rw [← hr, regAt_address]
    nofun
  rcases h with ⟨hlo, hhi⟩ | ⟨hlo, hhi⟩ | ⟨hlo, hhi⟩
  · exact mapped (.blk ⟨a.toNat - 0x40, by omega⟩) rfl hlo
  · exact mapped (.frame ⟨a.toNat - 0x60, by omega⟩) rfl hlo
  · exact mapped (.sig ⟨a.toNat - 0x20, by omega⟩) rfl hlo

/-- A host read returns the same when the register byte it reaches, if any, reads the same (R61). -/
theorem hostRead_congr {b : Byte} {s t : State} (h : ∀ r, regAt b = some r → readReg r t = readReg r s) :
    hostRead b t = hostRead b s := by
  cases hr : regAt b with
  | none => rw [hostRead_of_unmapped hr, hostRead_of_unmapped hr]
  | some r => rw [hostRead_of_regAt hr, hostRead_of_regAt hr, h r hr]

/-- Settles O32: by the register byte `a` reaches, or BAD_ACCESS where it reaches none. -/
theorem hostWriteFrame : Obligations.HostWriteFrame := by
  intro s a d ha
  have herr {b : Byte} (hb : b ≠ 0x03#8) {r : Reg} (hr : regAt b = some r) : r ≠ .err := by
    rintro rfl
    exact hb (address_of_regAt hr).symm
  cases hq : regAt a with
  | none =>
    refine ⟨setErr errBadAccess s, writeGives_of_unmapped hq s d, fun b _ hb _ _ => hostRead_congr fun r hr => ?_,
      fun hrange => absurd hq (regAt_ne_none_of_array (hrange.imp_right (Or.imp_right And.right)))⟩
    exact readReg_setErr (herr hb hr) _ s
  | some q =>
    obtain rfl := address_of_regAt hq
    have hcmd : q ≠ .cmd := by
      rintro rfl
      exact ha rfl
    refine ⟨writeReg q d s, writeGives_address hcmd s d,
      fun b hne hb hsig hkey => hostRead_congr fun r hr => ?_, fun hrange => ?_⟩
    · obtain rfl := address_of_regAt hr
      refine readReg_writeReg_other (fun he => hne (congrArg Reg.address he)) (herr hb hr) ?_ ?_ d s
      · rintro rfl i rfl
        exact hsig rfl (sig_address_bounds i)
      · rintro hvalid i rfl
        refine hkey ?_ (key_address_bounds i)
        exact hvalid.imp (congrArg Reg.address) (congrArg Reg.address)
    · rw [hostRead_of_regAt hq]
      exact readReg_writeReg_same d hrange

/-! A locked configuration (R71, R229). -/

/-- The lock and everything it protects are as before. -/
structure KeepsLockedConfiguration (s t : State) : Prop where
  locked : t.locked = true
  sig : t.sig = s.sig
  sigW : t.sigW = s.sigW
  key : t.key = s.key
  keyW : t.keyW = s.keyW

theorem AccessNext.keepsLockedConfiguration {s t : State} (hl : s.locked = true) (h : AccessNext s t) :
    KeepsLockedConfiguration s t := by
  cases h with
  | unmapped | read => exact ⟨hl, rfl, rfl, rfl, rfl⟩
  | write r d =>
    cases r with
    | sig i =>
      rw [writeReg_sig_of_locked hl]
      exact ⟨hl, rfl, rfl, rfl, rfl⟩
    | key i =>
      rw [writeReg_key_of_locked hl]
      exact ⟨hl, rfl, rfl, rfl, rfl⟩
    | _ => exact ⟨hl, rfl, rfl, rfl, rfl⟩

/-- No command unlocks, and none writes SIG or KEY. -/
theorem CommandNext.keepsLockedConfiguration {c : Instr} {s t : State} (hl : s.locked = true)
    (h : CommandNext s c t) : KeepsLockedConfiguration s t := by
  cases h with
  | lock => exact ⟨rfl, rfl, rfl, rfl, rfl⟩
  | _ => exact ⟨hl, rfl, rfl, rfl, rfl⟩

/-- Settles O36: a step that is no reset is idle, a command, or a host access that runs none. -/
theorem lockedConfigurationPersists : Obligations.LockedConfigurationPersists := by
  intro s t hl hreset h
  have hkeeps : KeepsLockedConfiguration s t := by
    rcases step_next h with ⟨-, ⟨-, rfl⟩ | ⟨rest, hp, -⟩ | ⟨item, rest, i, -, -, hx⟩⟩
    · exact ⟨hl, rfl, rfl, rfl, rfl⟩
    · exact absurd hp (hreset rest)
    · have hw : (withProgram rest s).locked = true := hl
      obtain ⟨hlocked, hsig, hsigW, hkey, hkeyW⟩ : KeepsLockedConfiguration (withProgram rest s) t := by
        rcases exec_next hx with ⟨c, -, hn⟩ | ⟨-, hn⟩
        · exact hn.keepsLockedConfiguration hw
        · exact hn.keepsLockedConfiguration hw
      exact ⟨hlocked, hsig, hsigW, hkey, hkeyW⟩
  exact ⟨hkeeps.locked, hkeeps.sig, hkeeps.sigW, hkeeps.key, hkeeps.keyW⟩

end Sys2Proof.Machine

/-! The block's filter on the first 24 bytes of a frame, and the document's on all of it (R77, R110 to R115). -/

namespace Sys2Proof.Machine

/-- FRAME holds the first 24 bytes of `raw`, or all it has: `HoldsFrame` without the length. -/
def StoresBytes (s : State) (raw : List Byte) : Prop :=
  ∀ i : Fin 24, i.val < raw.length → s.frameW.getLsbD i = true ∧ raw[i.val]? = some s.frame[i]

/-- Every range within the sequence and within FRAME is written. -/
theorem StoresBytes.allWritten {s : State} {raw : List Byte} (h : StoresBytes s raw) {start count : Nat}
    (hraw : start + count ≤ raw.length) (hcap : start + count ≤ 24) : AllWritten s.frameW start count :=
  fun j _ hj => (h ⟨j, by omega⟩ (by change j < raw.length; omega)).1

/-- A part of the sequence whose bytes are stored is the list of the stored bytes. -/
theorem StoresBytes.take_drop {s : State} {raw : List Byte} (h : StoresBytes s raw) {start count : Nat}
    (hraw : start + count ≤ raw.length) (hcap : start + count ≤ 24) (x : Vector Byte count)
    (hx : ∀ i : Fin count, x[i] = s.frame[start + i.val]) : (raw.drop start).take count = x.toList := by
  refine List.ext_getElem (by simp; omega) fun i hi _ => ?_
  have hi : i < count := by simp at hi; omega
  have hstored : raw[start + i]? = some s.frame[start + i] :=
    (h ⟨start + i, by omega⟩ (by change start + i < raw.length; omega)).2
  have hget : raw[start + i]'(by omega) = s.frame[start + i] := (List.getElem?_eq_some_iff.1 hstored).2
  rw [List.getElem_take, List.getElem_drop, hget, Vector.getElem_toList]
  exact (hx ⟨i, hi⟩).symm

theorem StoresBytes.candidate {s : State} {raw : List Byte} (h : StoresBytes s raw) (hlen : 22 ≤ raw.length) :
    (raw.drop 2).take 6 = (candidateOf s.frame).toList :=
  h.take_drop (by omega) (by decide) _ (candidateOf_getElem s.frame)

theorem StoresBytes.ciphertext {s : State} {raw : List Byte} (h : StoresBytes s raw) (hlen : raw.length = 24) :
    raw.drop 8 = (ciphertextOf s.frame).toList := by
  rw [← h.take_drop (by omega) (by decide) _ (ciphertextOf_getElem s.frame), List.take_of_length_le (by simp [hlen])]

/-- The document's filter on a sequence whose stored part is in FRAME (R110 to R115). -/
theorem documentFilter_of_storesBytes {s : State} {raw : List Byte} (h : StoresBytes s raw) (hlen : 22 ≤ raw.length) :
    documentFilter raw s.sig = if candidateOf s.frame ≠ s.sig then .signatureMismatch
      else if raw.length ≠ 24 then .badCiphertextLength else .accepted (ciphertextOf s.frame) := by
  rw [documentFilter, if_neg (Nat.not_lt.2 hlen), h.candidate hlen]
  simp only [ne_eq, Vector.toList_inj]
  split
  · rfl
  · have hdrop : (raw.drop 8).length = 16 ↔ raw.length = 24 := by
      rw [List.length_drop]
      omega
    by_cases h24 : raw.length = 24
    · rw [dif_pos (hdrop.2 h24), if_neg (not_not.2 h24)]
      congr 1
      apply Vector.toArray_inj.1
      change (raw.drop 8).toArray = _
      rw [h.ciphertext h24]
      exact Array.toArray_toList
    · rw [dif_neg (fun hd => h24 (hdrop.1 hd)), if_pos h24]

/-- The two filters agree when FRAME holds the stored bytes and FRAME_LEN stands on the same side of 22 and of 24 as the
length of the sequence. -/
theorem filterFn_eq_documentFilter {s : State} {raw : List Byte} (h : StoresBytes s raw) (hsig : AllWritten s.sigW 0 6)
    (hmin : s.frameLen.toNat < 22 ↔ raw.length < 22) (hfull : s.frameLen.toNat = 24 ↔ raw.length = 24) :
    filterFn s = .ok (documentFilter raw s.sig) := by
  by_cases hshort : raw.length < 22
  · rw [filterFn_of_short (hmin.2 hshort), documentFilter, if_pos hshort]
  have hlen : 22 ≤ raw.length := Nat.le_of_not_lt hshort
  have hlen' : 22 ≤ s.frameLen.toNat := Nat.le_of_not_lt fun hs => hshort (hmin.1 hs)
  rw [filterFn_of_signatures hlen' (h.allWritten (by omega) (by decide)) hsig, documentFilter_of_storesBytes h hlen]
  simp only [ne_eq, hfull]
  by_cases hmatch : candidateOf s.frame = s.sig
  · by_cases h24 : raw.length = 24
    · have hct : readCiphertext s = .ok (ciphertextOf s.frame) :=
        readRange_of_allWritten (h.allWritten (by simp [Config.ctOff, Config.ctLen, h24]) (by decide))
      simp only [hmatch, h24, not_true, if_false, hct]
      rfl
    · simp only [hmatch, h24, not_true, not_false_eq_true, if_false, if_true]
  · simp only [hmatch, not_false_eq_true, if_true]

/-- Settles O46: FRAME_LEN is the sequence's length, or both it and the length are past 24. -/
theorem filterAgreesWithDocument : Obligations.FilterAgreesWithDocument := by
  constructor
  · rintro s raw ⟨hlen, hbytes⟩ hsig
    exact filterFn_eq_documentFilter hbytes hsig (by rw [hlen]) (by rw [hlen])
  · intro s raw hraw hlen hbytes hsig
    exact filterFn_eq_documentFilter (fun i _ => hbytes i) hsig (by omega) (by omega)

end Sys2Proof.Machine

/-! The CMD8 rows as ranges of opcodes, and the agreement of the decoder and the encoder (R90 to R95). -/

namespace Sys2Proof

/-- Keeping all but the low `k` bits of a byte rounds its number down to a multiple of `2 ^ k`. -/
theorem toNat_and_highBits (v : Byte) (k : Nat) :
    (v &&& BitVec.allOnes 8 <<< k).toNat = 2 ^ k * (v.toNat / 2 ^ k) := by
  have hshift : v &&& BitVec.allOnes 8 <<< k = v >>> k <<< k := by
    ext i hi
    simp only [BitVec.getElem_and, BitVec.getElem_shiftLeft, BitVec.getElem_allOnes, BitVec.getElem_ushiftRight]
    grind
  rw [hshift, BitVec.toNat_shiftLeft, BitVec.toNat_ushiftRight, Nat.shiftRight_eq_div_pow, Nat.shiftLeft_eq,
    Nat.mul_comm]
  exact Nat.mod_eq_of_lt (Nat.lt_of_le_of_lt (Nat.mul_div_le ..) v.isLt)

/-- A row whose mask keeps all but the low `k` bits holds the `2 ^ k` opcodes from its value on (R94). -/
theorem matchesRow_range (k : Nat) {mask value v : Byte} (hmask : mask = BitVec.allOnes 8 <<< k)
    (hvalue : value.toNat % 2 ^ k = 0) :
    matchesRow mask value v = true ↔ value.toNat ≤ v.toNat ∧ v.toNat < value.toNat + 2 ^ k := by
  obtain ⟨q, hq⟩ := Nat.dvd_of_mod_eq_zero hvalue
  rw [matchesRow, beq_iff_eq, ← BitVec.toNat_inj, hmask, toNat_and_highBits, hq, Nat.mul_right_inj (by simp),
    Nat.div_eq_iff (by simp)]
  grind

/-! The six rows of reserved opcodes that hold more than one. -/

theorem matchesRow_0A {v : Byte} : matchesRow 0xFE#8 0x0A#8 v = true ↔ 0x0A ≤ v.toNat ∧ v.toNat < 0x0C :=
  matchesRow_range 1 rfl rfl

theorem matchesRow_0C {v : Byte} : matchesRow 0xFC#8 0x0C#8 v = true ↔ 0x0C ≤ v.toNat ∧ v.toNat < 0x10 :=
  matchesRow_range 2 rfl rfl

theorem matchesRow_10 {v : Byte} : matchesRow 0xF0#8 0x10#8 v = true ↔ 0x10 ≤ v.toNat ∧ v.toNat < 0x20 :=
  matchesRow_range 4 rfl rfl

theorem matchesRow_20 {v : Byte} : matchesRow 0xE0#8 0x20#8 v = true ↔ 0x20 ≤ v.toNat ∧ v.toNat < 0x40 :=
  matchesRow_range 5 rfl rfl

theorem matchesRow_40 {v : Byte} : matchesRow 0xC0#8 0x40#8 v = true ↔ 0x40 ≤ v.toNat ∧ v.toNat < 0x80 :=
  matchesRow_range 6 rfl rfl

theorem matchesRow_80 {v : Byte} : matchesRow 0x80#8 0x80#8 v = true ↔ 0x80 ≤ v.toNat ∧ v.toNat < 0x100 :=
  matchesRow_range 7 rfl rfl

/-- The rows of reserved opcodes follow one another and leave no opcode out (R94). -/
theorem decodeCmd8_of_reserved {d : Byte} (h : 9 ≤ d.toNat) : decodeCmd8 d =
    if d.toNat < 0x0A then .reserved09 else if d.toNat < 0x0C then .reserved0A d
    else if d.toNat < 0x10 then .reserved0C d else if d.toNat < 0x20 then .reserved10 d
    else if d.toNat < 0x40 then .reserved20 d else if d.toNat < 0x80 then .reserved40 d else .reserved80 d := by
  simp only [decodeCmd8, matchesRow_full, beq_iff_eq, ← BitVec.toNat_inj, BitVec.toNat_ofNat, Nat.reducePow,
    Nat.reduceMod, matchesRow_0A, matchesRow_0C, matchesRow_10, matchesRow_20, matchesRow_40]
  simp (disch := omega) only [if_neg]
  grind

/-- What a command byte decodes to is well-formed and is written as that byte (R93, R94). -/
theorem decodeCmd8_sound (d : Byte) : (decodeCmd8 d).wellFormed = true ∧ encode (decodeCmd8 d) = .cmd8 d := by
  rcases opcode_cases d with ⟨n, rfl⟩ | hd
  · fin_cases n <;> exact ⟨rfl, rfl⟩
  · rw [decodeCmd8_of_reserved hd]
    have hlt := d.isLt
    split_ifs
    · obtain rfl : d = 0x09#8 := BitVec.eq_of_toNat_eq (by rw [BitVec.toNat_ofNat]; omega)
      exact ⟨rfl, rfl⟩
    · exact ⟨matchesRow_0A.2 (by omega), rfl⟩
    · exact ⟨matchesRow_0C.2 (by omega), rfl⟩
    · exact ⟨matchesRow_10.2 (by omega), rfl⟩
    · exact ⟨matchesRow_20.2 (by omega), rfl⟩
    · exact ⟨matchesRow_40.2 (by omega), rfl⟩
    · exact ⟨matchesRow_80.2 (by omega), rfl⟩

/-- A well-formed instruction that is written as a command byte is what that byte decodes to (R93, R94). -/
theorem decodeCmd8_of_encode {i : Instr} {d : Byte} (hi : i.wellFormed = true) (he : encode i = .cmd8 d) :
    decodeCmd8 d = i := by
  cases i with
  | nop | filter | decrypt | encrypt | extract | decode | process | lock | clear | reserved09 => cases he; rfl
  | reserved0A | reserved0C | reserved10 | reserved20 | reserved40 | reserved80 =>
    cases he
    simp only [Instr.wellFormed, matchesRow_0A, matchesRow_0C, matchesRow_10, matchesRow_20, matchesRow_40,
      matchesRow_80] at hi
    rw [decodeCmd8_of_reserved (by omega)]
    simp (disch := omega) only [if_neg, if_pos]
  | htxWr | htxRd => cases he

/-! HTX words (R91, R95). -/

/-- The word of a host write decodes to it. -/
theorem decodeHtx_writeWord (addr data : Byte) : decodeHtx (htxWord 1#1 addr data) = .ok (.htxWr addr data) := by
  rw [decodeHtx_eq (htxWord_lt ..), htxWord_eq, if_pos (by bv_omega), if_pos (by bv_omega)]
  congr 2
  · bv_omega
  · bv_omega

/-- The word of a host read decodes to it. -/
theorem decodeHtx_readWord (addr : Byte) : decodeHtx (htxWord 0#1 addr 0x00#8) = .ok (.htxRd addr) := by
  rw [decodeHtx_eq (htxWord_lt ..), htxWord_eq, if_pos (by bv_omega), if_neg (by bv_omega), if_pos (by bv_omega)]
  congr 2
  bv_omega

/-- An instruction that is written as a word is what that word decodes to (R91). -/
theorem decodeHtx_of_encode {i : Instr} {w : Nat} (he : encode i = .htx w) : decodeHtx w = .ok i := by
  cases i with
  | htxWr addr data => cases he; exact decodeHtx_writeWord addr data
  | htxRd addr => cases he; exact decodeHtx_readWord addr
  | _ => cases he

/-- What a word decodes to is well-formed and is written as that word: its fields leave no bit of it out (R91, R95). -/
theorem decodeHtx_sound {w : Nat} {i : Instr} (h : decodeHtx w = .ok i) :
    i.wellFormed = true ∧ encode i = .htx w := by
  rcases Nat.lt_or_ge w (2 ^ 24) with hw | hw
  · rw [decodeHtx_eq hw] at h
    split_ifs at h with hrsv hwr hdata
    all_goals
      obtain rfl := Except.ok.inj h
      refine ⟨rfl, ?_⟩
      simp only [encode, htxWord_eq, BitVec.toNat_ofNat, RawItem.htx.injEq]
      omega
  · rw [decodeHtx_of_wide hw] at h
    cases h

/-! Both formats together. -/

theorem decode_encode {i : Instr} (hi : i.wellFormed = true) : decode (encode i) = .ok i := by
  cases he : encode i with
  | cmd8 d => exact congrArg Except.ok (decodeCmd8_of_encode hi he)
  | htx w => exact decodeHtx_of_encode he

theorem encode_of_decode {item : RawItem} {i : Instr} (h : decode item = .ok i) :
    i.wellFormed = true ∧ encode i = item := by
  cases item with
  | cmd8 d =>
    obtain rfl := Except.ok.inj h
    exact decodeCmd8_sound d
  | htx w => exact decodeHtx_sound h

/-- Settles O1: command bytes by the ranges of the opcode rows, host transactions by the fields of their word. -/
theorem decodeEncodeRoundTrip : Obligations.DecodeEncodeRoundTrip := fun _ hi => decode_encode hi

/-- Settles O2: the rows cover every opcode, and the fields every bit, of an item that decodes. -/
theorem encodeDecodeRoundTrip : Obligations.EncodeDecodeRoundTrip := fun _ _ h => encode_of_decode h

/-- Settles O4: the two numbers are the words of a host write and of a host read (R91). -/
theorem htxFieldsDecode : Obligations.HtxFieldsDecode := by
  intro addr data
  have hwrite : 0x010000 + 256 * addr.toNat + data.toNat = htxWord 1#1 addr data := by
    simp [htxWord_eq]
  have hread : 256 * addr.toNat = htxWord 0#1 addr 0x00#8 := by
    simp [htxWord_eq]
  rw [hwrite, hread]
  exact ⟨decodeHtx_writeWord addr data, decodeHtx_readWord addr⟩

/-- Settles O3: the samples of R91, R93 and R94. -/
theorem sampleItemsDecode : Obligations.SampleItemsDecode := by
  refine ⟨rfl, rfl, rfl, rfl, ?_, ?_, ?_⟩
  · exact decodeHtx_writeWord 0x00#8 0x06#8
  · exact decodeHtx_writeWord 0x60#8 0xFF#8
  · exact decodeHtx_readWord 0x01#8

end Sys2Proof

/-! The words that encode no transaction, and the program that holds one (R95, R263). -/

namespace Sys2Proof.Machine

/-- Each of R95's three kinds of word is refused by name. -/
theorem decodeHtx_of_badWord {w : Nat} (h : BadWord w) : ∃ why, decodeHtx w = .error why := by
  rcases Nat.lt_or_ge w (2 ^ 24) with hw | hw
  · rw [decodeHtx_eq hw]
    by_cases hrsv : w / 2 ^ 17 = 0
    · obtain ⟨hread, hdata⟩ : w / 2 ^ 16 % 2 = 0 ∧ w % 256 ≠ 0 := by
        rcases h with hwide | hrsv' | hread
        · omega
        · exact absurd hrsv hrsv'
        · exact hread
      exact ⟨.readWithData, by rw [if_pos hrsv, if_neg (by omega), if_neg hdata]⟩
    · exact ⟨.reservedBitsSet, if_neg hrsv⟩
  · exact ⟨.wordTooWide, decodeHtx_of_wide hw⟩

/-- A word of none of R95's three kinds is a host write or a host read. -/
theorem decodeHtx_of_not_badWord {w : Nat} (h : ¬ BadWord w) : ∃ i, decodeHtx w = .ok i := by
  obtain ⟨hw, hrsv, hread⟩ : w < 2 ^ 24 ∧ w / 2 ^ 17 = 0 ∧ (w / 2 ^ 16 % 2 = 0 → w % 256 = 0) := by
    simpa only [BadWord, not_or, not_and, not_not, Nat.not_le, Nat.reducePow] using h
  rw [decodeHtx_eq hw, if_pos hrsv]
  by_cases hwr : w / 2 ^ 16 % 2 = 1
  · exact ⟨_, if_pos hwr⟩
  · exact ⟨_, by rw [if_neg hwr, if_pos (hread (by omega))]⟩

/-- Legal events are passed over, one position an event. -/
theorem firstIllegal_append {before : List HostEvent} (h : ∀ e ∈ before, EncodesEvent e) (rest : List HostEvent)
    (pos : Nat) : firstIllegal (before ++ rest) pos = firstIllegal rest (pos + before.length) := by
  induction before generalizing pos with
  | nil => rfl
  | cons e before ih =>
    obtain ⟨he, hbefore⟩ := List.forall_mem_cons.1 h
    have hlen : pos + (e :: before).length = pos + 1 + before.length := by
      rw [List.length_cons, Nat.add_comm before.length 1, Nat.add_assoc]
    rw [hlen, ← ih hbefore]
    cases e with
    | reset => rfl
    | transaction item =>
      obtain ⟨i, hi⟩ := he
      simp only [List.cons_append, firstIllegal, hi]

/-- A step on a program whose first illegal event follows `before` is the refusal of the program (R95, R263). -/
theorem step_illegal {s : State} {before after : List HostEvent} {item : RawItem} {why : DecodeError}
    (hp : s.program = before ++ .transaction item :: after) (hbefore : ∀ e ∈ before, EncodesEvent e)
    (he : decode item = .error why) : step s = .refused (.illegalWord why before.length) := by
  have hfirst : firstIllegal s.program 0 = some (why, before.length) := by
    rw [hp, firstIllegal_append hbefore, Nat.zero_add]
    simp only [firstIllegal, he]
  simp only [step, fetch, hfirst]

/-- Settles O5: the legal events are passed over, and the bad word stops the fetch before anything runs. -/
theorem illegalWordRefusesProgram : Obligations.IllegalWordRefusesProgram := by
  refine ⟨fun s before after w hp hbefore hbad => ?_, fun w hgood => decodeHtx_of_not_badWord hgood⟩
  obtain ⟨why, he⟩ := decodeHtx_of_badWord hbad
  exact ⟨why, he, step_illegal hp hbefore he⟩

end Sys2Proof.Machine

/-! The reserved opcodes and the opcode map (R93, R94, R205). -/

namespace Sys2Proof.Machine

/-- What BAD_COMMAND leaves (R205). -/
theorem badCommand_eq (s : State) : badCommand s = .next { s with status := 0x48#8, err := s.err ||| 0x02#8 } := by
  rw [badCommand, finish_badCommand]
  rfl

/-- The reserved opcodes are those from 0x09 on (R94). -/
theorem isReserved_decodeCmd8_iff (d : Byte) : isReserved (decodeCmd8 d) = true ↔ 9 ≤ d.toNat := by
  refine ⟨fun h => ?_, isReserved_decodeCmd8⟩
  rcases opcode_cases d with ⟨n, rfl⟩ | hd
  · fin_cases n <;> cases h
  · exact hd

/-- Settles O6: a byte from 0x09 on decodes to a reserved instruction, and every one of them is BAD_COMMAND. -/
theorem reservedOpcodesAreBadCommands : Obligations.ReservedOpcodesAreBadCommands := by
  refine fun d s => ⟨isReserved_decodeCmd8_iff d, fun hd => ?_⟩
  rw [exec_of_isReserved (isReserved_decodeCmd8 hd), badCommand_eq]

/-- Settles O7: a write to CMD runs the command its byte decodes to (R28), so the map is the decoder's, row by row. -/
theorem commandWritesFollowOpcodeMap : Obligations.CommandWritesFollowOpcodeMap := by
  intro s
  have hcmd (d : Byte) : exec (.htxWr 0x00#8 d) s = exec (decodeCmd8 d) s := (cmdRegisterExecutes d s).1
  refine ⟨hcmd 0x00#8, hcmd 0x01#8, hcmd 0x02#8, hcmd 0x03#8, hcmd 0x04#8, hcmd 0x05#8, hcmd 0x06#8, hcmd 0x07#8,
    hcmd 0x08#8, fun d hd => ?_⟩
  rw [hcmd, (reservedOpcodesAreBadCommands d s).2 hd]

end Sys2Proof.Machine

/-! Every word of an accepted text is the word of a host write or of a host read (R91, R97 to R99). -/

namespace Sys2Proof.Machine.Asm

/-- Every one of the words encodes a transaction. -/
def AllEncode (ws : List Nat) : Prop := ∀ w ∈ ws, EncodesEvent (.transaction (.htx w))

theorem allEncode_nil : AllEncode [] := fun _ hw => absurd hw List.not_mem_nil

theorem AllEncode.append {ws vs : List Nat} (hw : AllEncode ws) (hv : AllEncode vs) : AllEncode (ws ++ vs) :=
  List.forall_mem_append.2 ⟨hw, hv⟩

theorem AllEncode.cons_write {ws : List Nat} (h : AllEncode ws) (addr data : Byte) :
    AllEncode (writeWord addr data :: ws) :=
  List.forall_mem_cons.2 ⟨⟨_, decodeHtx_writeWord addr data⟩, h⟩

theorem AllEncode.cons_read {ws : List Nat} (h : AllEncode ws) (addr : Byte) : AllEncode (readWord addr :: ws) :=
  List.forall_mem_cons.2 ⟨⟨_, decodeHtx_readWord addr⟩, h⟩

/-- Words given under a check encode transactions when the words themselves do. -/
theorem AllEncode.of_check {p : Prop} [Decidable p] {ws vs : List Nat} {e : AsmError} (hw : AllEncode ws)
    (h : (if p then .ok ws else .error e) = Except.ok vs) : AllEncode vs := by
  split_ifs at h
  obtain rfl := Except.ok.inj h
  exact hw

theorem allEncode_writeWords (addr : Nat) (bytes : List Byte) : AllEncode (writeWords addr bytes) := by
  induction bytes generalizing addr with
  | nil => exact allEncode_nil
  | cons b bs ih => exact (ih (addr + 1)).cons_write _ b

theorem allEncode_loadBytes {addr count : Nat} {bytes : List Byte} {ws : List Nat}
    (h : loadBytes addr count bytes = .ok ws) : AllEncode ws := (allEncode_writeWords addr bytes).of_check h

/-- A statement expands to host writes and host reads alone (R97 to R99). -/
theorem allEncode_expand {st : Statement} {ws : List Nat} (h : expand st = .ok ws) : AllEncode ws := by
  cases st with
  | wr addr data => exact (allEncode_nil.cons_write _ _).of_check h
  | rd addr => exact (allEncode_nil.cons_read _).of_check h
  | command | clrerr =>
    obtain rfl := Except.ok.inj h
    exact allEncode_nil.cons_write _ _
  | ldsig bytes | ldkey bytes | ldblk bytes => exact allEncode_loadBytes h
  | ldframe len bytes =>
    simp only [expand] at h
    split_ifs at h
    split at h
    · rename_i vs hload
      obtain rfl := Except.ok.inj h
      exact ((allEncode_loadBytes hload).cons_write _ _).cons_write _ _
    · cases h
  | setverbose v => exact (allEncode_nil.cons_write _ _).of_check h
  | rdrec =>
    obtain rfl := Except.ok.inj h
    exact ((((allEncode_nil.cons_read _).cons_read _).cons_read _).cons_read _).cons_read _

theorem allEncode_assembleLine {line : List Char} {ws : List Nat} (h : assembleLine line = .ok ws) : AllEncode ws := by
  unfold assembleLine at h
  split at h
  · obtain rfl := Except.ok.inj h
    exact allEncode_nil
  · exact allEncode_expand h
  · cases h

theorem allEncode_assembleLines {n : Nat} {lines : List (List Char)} {ws : List Nat}
    (h : assembleLines n lines = .ok ws) : AllEncode ws := by
  induction lines generalizing n ws with
  | nil =>
    obtain rfl := Except.ok.inj h
    exact allEncode_nil
  | cons l ls ih =>
    unfold assembleLines at h
    split at h
    · cases h
    · rename_i lineWords hline
      cases hrest : assembleLines (n + 1) ls with
      | error e =>
        rw [hrest] at h
        cases h
      | ok rest =>
        rw [hrest] at h
        obtain rfl := Except.ok.inj h
        exact (allEncode_assembleLine hline).append (ih hrest)

/-- Settles O59: the words of a text are those of its lines, and each line's are its statement's. -/
theorem assembledWordsEncode : Obligations.AssembledWordsEncode := fun _ _ h =>
  List.forall_mem_map.2 (allEncode_assembleLines h)

end Sys2Proof.Machine.Asm

/-! What FILTER and PROCESS answer for each answer of `FilterFn`, and DECODE of a written block (R116, R188, R201). -/

namespace Sys2Proof.Machine

theorem execFilter_of_unlocked {s : State} (hl : s.locked = false) :
    execFilter s = .next (finish .notConfigured false false false s) := by
  simp [execFilter, hl]

theorem execFilter_of_error {s : State} {f : Fault} (hl : s.locked = true) (hf : filterFn s = .error f) :
    execFilter s = .fault f := by
  simp [execFilter, hl, hf]

theorem execFilter_of_verdict {s : State} {v : FilterVerdict} (hl : s.locked = true) (hv : filterFn s = .ok v) :
    execFilter s = .next (finish (verdictCode v) (verdictSigcmp v) false false (storeAccepted v s)) := by
  simp [execFilter, hl, hv]

theorem execProcess_of_unlocked {s : State} (hl : s.locked = false) :
    execProcess s = .next (finish .notConfigured false false false s) := by
  simp [execProcess, hl]

/-- PROCESS of a frame the filter rejects is done with the verdict (R201). -/
theorem execProcess_of_rejected {s : State} {v : FilterVerdict} (hl : s.locked = true) (hv : filterFn s = .ok v)
    (hne : ∀ ct, v ≠ .accepted ct) :
    execProcess s = .next (finish (verdictCode v) (verdictSigcmp v) false false s) := by
  cases v with
  | accepted ct => exact absurd rfl (hne ct)
  | tooShort | signatureMismatch | badCiphertextLength => simp [execProcess, hl, hv]

/-- PROCESS of an accepted frame with a complete key decrypts its ciphertext and keeps the record (R201). -/
theorem execProcess_of_accepted {s : State} {ct : Block} (hl : s.locked = true) (hk : keyComplete s = true)
    (hv : filterFn s = .ok (.accepted ct)) :
    execProcess s = .next (finish .ok true true true
      (storeRecord (recordOf (Aes.invCipher s.key ct)) (completeInvCipher ct s))) := by
  simp [execProcess, hl, hv, hk, extractAndFinish_completeInvCipher]

/-- DECODE with a complete key and a written block cannot fail (R188). -/
theorem execDecode_of_allWritten {s : State} (hk : keyComplete s = true) (hw : AllWritten s.blkW 0 16) :
    execDecode s = .next (finish .ok false true true
      (storeRecord (recordOf (Aes.invCipher s.key s.blk)) (completeInvCipher s.blk s))) := by
  have hread : readBlk s = .ok s.blk := readRange_of_allWritten hw
  simp [execDecode, hk, hread, extractAndFinish_completeInvCipher]

end Sys2Proof.Machine

/-! `FilterFn` step by step: what each answer needs (R110 to R115). -/

namespace Sys2Proof.Machine

theorem AllWritten.mono {n : Nat} {w : BitVec n} {start count start' count' : Nat} (h : AllWritten w start count)
    (hlo : start ≤ start') (hhi : start' + count' ≤ start + count) : AllWritten w start' count' :=
  fun j hj hj' => h j (by omega) (by omega)

/-- The comparison of the two signatures is the comparison of their six bytes (R113). -/
theorem candidateOf_eq_sig_iff (s : State) : candidateOf s.frame = s.sig ↔ SignatureMatches s := by
  constructor
  · intro heq i
    rw [← candidateOf_getElem, heq]
  · intro hm
    exact Vector.ext fun i hi => (candidateOf_getElem s.frame ⟨i, hi⟩).trans (hm ⟨i, hi⟩)

section Compared
variable {s : State} (hw : AllWritten s.frameW 2 6) (hs : AllWritten s.sigW 0 6)
include hw hs

theorem filterFn_of_mismatch (hlen : 22 ≤ s.frameLen.toNat) (hne : ¬ SignatureMatches s) :
    filterFn s = .ok .signatureMismatch := by
  rw [filterFn_of_signatures hlen hw hs, if_pos (mt (candidateOf_eq_sig_iff s).1 hne)]

theorem filterFn_of_badLength (hlen : 22 ≤ s.frameLen.toNat) (hm : SignatureMatches s) (hne : s.frameLen.toNat ≠ 24) :
    filterFn s = .ok .badCiphertextLength := by
  rw [filterFn_of_signatures hlen hw hs, if_neg (not_not.2 ((candidateOf_eq_sig_iff s).2 hm)), if_pos hne]

/-- Past its three checks the filter reads the ciphertext and accepts it (R115). -/
theorem filterFn_of_checksPassed (hlen : s.frameLen.toNat = 24) (hm : SignatureMatches s) :
    filterFn s = (readCiphertext s).map .accepted := by
  rw [filterFn_of_signatures (by omega) hw hs, if_neg (not_not.2 ((candidateOf_eq_sig_iff s).2 hm)),
    if_neg (not_not.2 hlen)]

theorem filterFn_of_ciphertextHole {k : Nat} (hlen : s.frameLen.toNat = 24) (hm : SignatureMatches s)
    (hk : FirstHole s.frameW 8 16 k) : filterFn s = .error (.unwrittenRead .frame k) := by
  have hct : readCiphertext s = .error (.unwrittenRead .frame k) := readRange_of_firstHole hk
  rw [filterFn_of_checksPassed hw hs hlen hm, hct]
  rfl

theorem filterFn_of_accepted (hlen : s.frameLen.toNat = 24) (hm : SignatureMatches s) (hcw : AllWritten s.frameW 8 16) :
    filterFn s = .ok (.accepted (ciphertextOf s.frame)) := by
  have hct : readCiphertext s = .ok (ciphertextOf s.frame) := readRange_of_allWritten hcw
  rw [filterFn_of_checksPassed hw hs hlen hm, hct]
  rfl

end Compared

/-- Settles O17: each case is the answer of `FilterFn` in that case, ended by FILTER. -/
theorem filterCommand : Obligations.FilterCommand := by
  intro s
  refine ⟨fun hl => ?unlocked, fun hl hlen => ?tooShort, fun hl hlen k hk => ?frameHole, fun hl hlen hw k hk => ?sigHole,
    fun hl hlen hw hs hne => ?mismatch, fun hl hlen h24 hw hs hm => ?badLength,
    fun hl h24 hw hs hm k hk => ?ciphertextHole, fun hl h24 hw hs hm => ?accepted⟩
  case unlocked => exact (execFilter_of_unlocked hl).trans (congrArg _ (finish_notConfigured s))
  case tooShort => exact (execFilter_of_verdict hl (filterFn_of_short hlen)).trans (congrArg _ (finish_tooShort s))
  case frameHole => exact execFilter_of_error hl (filterFn_of_frameHole hlen hk)
  case sigHole => exact execFilter_of_error hl (filterFn_of_sigHole hlen hw hk)
  case mismatch =>
    exact (execFilter_of_verdict hl (filterFn_of_mismatch hw hs hlen hne)).trans
      (congrArg _ (finish_signatureMismatch s))
  case badLength =>
    exact (execFilter_of_verdict hl (filterFn_of_badLength hw hs hlen hm h24)).trans
      (congrArg _ (finish_badCiphertextLength s))
  case ciphertextHole => exact execFilter_of_error hl (filterFn_of_ciphertextHole hw hs h24 hm hk)
  case accepted =>
    have hsw : AllWritten s.frameW 2 6 := hw.mono (by decide) (by decide)
    have hcw : AllWritten s.frameW 8 16 := hw.mono (by decide) (by decide)
    refine ⟨ciphertextOf s.frame, ciphertextOf_getElem s.frame, ?_⟩
    exact (execFilter_of_verdict hl (filterFn_of_accepted hsw hs h24 hm hcw)).trans
      (congrArg _ (finish_ok_filter (setBlk (ciphertextOf s.frame) s)))

end Sys2Proof.Machine

/-! What the filter reads, and where each byte of it can matter (R117 to R119). -/

namespace Sys2Proof.Machine

/-- A read depends on the written-bits of its own range alone. -/
theorem readRange_congr_written {α : Type} {n : Nat} {array : ByteArrayName} {w w' : BitVec n} {start count : Nat} {v : α}
    (hw : ∀ j, start ≤ j → j < start + count → w'.getLsbD j = w.getLsbD j) :
    readRange array w' start count v = readRange array w start count v := by
  have hfind : firstUnwritten w' start count = firstUnwritten w start count :=
    List.find?_congr fun j hj => by
      rw [List.mem_range'_1] at hj
      rw [hw j hj.1 hj.2]
  rw [readRange, readRange, hfind]

/-- `FilterFn` is made of FRAME_LEN and its three reads, each of which counts only from the length at which it is done
(R112 to R115). -/
theorem filterFn_congr {s t : State} (hlen : t.frameLen = s.frameLen)
    (hcand : 22 ≤ s.frameLen.toNat → readCandidate t = readCandidate s)
    (hsig : 22 ≤ s.frameLen.toNat → readSignature t = readSignature s)
    (hct : s.frameLen.toNat = 24 → readCiphertext t = readCiphertext s) : filterFn t = filterFn s := by
  by_cases hshort : s.frameLen.toNat < 22
  · rw [filterFn_of_short hshort, filterFn_of_short (hlen ▸ hshort)]
  have hlong : 22 ≤ s.frameLen.toNat := Nat.le_of_not_lt hshort
  rw [filterFn, filterFn, hlen, hcand hlong, hsig hlong]
  by_cases h24 : s.frameLen.toNat = 24
  · rw [hct h24]
  · have hbad : s.frameLen.toNat - Config.ctOff ≠ Config.ctLen := by
      simp only [Config.ctOff, Config.ctLen]
      omega
    simp only [if_pos hbad]

/-- Two states whose frames agree on a range of bytes, written-bits included. -/
def SameFrameRange (s t : State) (start count : Nat) : Prop :=
  ∀ i : Fin 24, start ≤ i.val → i.val < start + count →
    t.frameW.getLsbD i = s.frameW.getLsbD i ∧ t.frame[i] = s.frame[i]

/-- Reading a range of the frame is the same in both, when its value is made of the bytes of that range. -/
theorem SameFrameRange.readRange_eq {s t : State} {start count : Nat} (h : SameFrameRange s t start count)
    (hcap : start + count ≤ 24) {part : FrameBytes → Vector Byte count}
    (hpart : ∀ (f : FrameBytes) (i : Fin count), (part f)[i] = f[start + i.val]) :
    readRange .frame t.frameW start count (part t.frame) = readRange .frame s.frameW start count (part s.frame) := by
  have hvalue : part t.frame = part s.frame := Vector.ext fun i hi => by
    have hb : t.frame[start + i] = s.frame[start + i] :=
      (h ⟨start + i, by omega⟩ (Nat.le_add_right start i) (Nat.add_lt_add_left hi start)).2
    exact (hpart t.frame ⟨i, hi⟩).trans (hb.trans (hpart s.frame ⟨i, hi⟩).symm)
  rw [hvalue]
  exact readRange_congr_written fun j hj hj' => (h ⟨j, by omega⟩ hj hj').1

/-- Settles O45: each of the three reads is of bytes on which the two states agree. -/
theorem filterReadsOnlyItsBytes : Obligations.FilterReadsOnlyItsBytes := by
  intro s t hlen hsig hframe
  refine filterFn_congr hlen (fun hlong => ?candidate) (fun hlong => ?signature) (fun h24 => ?ciphertext)
  case candidate =>
    have hsame : SameFrameRange s t 2 6 := fun i hlo hhi => hframe i (.inl ⟨hlong, hlo, hhi⟩)
    exact hsame.readRange_eq (by decide) candidateOf_getElem
  case signature =>
    obtain ⟨hbytes, hwritten⟩ := hsig hlong
    rw [readSignature, readSignature, hbytes, hwritten]
  case ciphertext =>
    have hsame : SameFrameRange s t 8 16 := fun i hlo _ => hframe i (.inr ⟨h24, hlo⟩)
    exact hsame.readRange_eq (by decide) ciphertextOf_getElem

end Sys2Proof.Machine

/-! PROCESS as FILTER and then DECODE (R93, R201). -/

namespace Sys2Proof.Machine

/-- RESULT is the number of the outcome code, whatever the flags (R24, R200). -/
@[simp] theorem statusResult_statusByte (c : ResultCode) (sc dr em rc : Bool) :
    statusResult (statusByte c sc dr em rc) = (resultNumber c).setWidth 4 := by
  ext i hi
  simp only [statusResult, statusByte, BitVec.getElem_extractLsb', BitVec.getElem_setWidth, BitVec.getLsbD_or,
    BitVec.getLsbD_shiftLeft]
  simp [-BitVec.getLsbD_eq_getElem, show i < 7 by omega, show i < 6 by omega, show i < 5 by omega, hi]

/-- OK is the one outcome code of number 1 (R39). -/
theorem resultNumber_eq_one_iff (c : ResultCode) : (resultNumber c).setWidth 4 = 1#4 ↔ c = .ok := by
  cases c <;> decide

theorem statusResult_finish_eq_ok_iff (c : ResultCode) (sc dr rc : Bool) (s : State) :
    statusResult (finish c sc dr rc s).status = 1#4 ↔ c = .ok := by
  rw [finish_status, statusResult_statusByte, resultNumber_eq_one_iff]

/-- All that FILTER can answer: it changes STATUS alone and PROCESS ends alike, or it puts an accepted ciphertext in
BLK (R116, R201). -/
theorem execFilter_outcomes {s t : State} (h : execFilter s = .next t) :
    (∃ code sigcmp, code ≠ .ok ∧ t = finish code sigcmp false false s ∧ execProcess s = .next t) ∨
    ∃ ct, s.locked = true ∧ filterFn s = .ok (.accepted ct) ∧ t = finish .ok true false false (setBlk ct s) := by
  rcases execFilter_next h with ⟨hl, rfl⟩ | ⟨hl, v, hv, rfl⟩
  · exact .inl ⟨_, _, by decide, rfl, execProcess_of_unlocked hl⟩
  · cases v with
    | accepted ct => exact .inr ⟨ct, hl, hv, rfl⟩
    | tooShort | signatureMismatch | badCiphertextLength =>
      exact .inl ⟨_, _, by decide, rfl, execProcess_of_rejected hl hv nofun⟩

/-- PROCESS ends as DECODE does, with SIGCMP set (R188, R201). -/
theorem finish_ok_process_eq_decode (s : State) :
    finish .ok true true true s =
      { finish .ok false true true s with status := (finish .ok false true true s).status ||| 0x10#8 } := by
  have hor : 0xE1#8 ||| 0x10#8 = 0xF1#8 := by decide
  rw [finish_ok_process, finish_ok_decode, ← hor]

/-- A decryption keeps nothing of the BLK and the STATUS that FILTER left. -/
theorem finish_storeRecord_completeInvCipher_filtered (r : TelemetryRecord) (ct y : Block) (sc dr rc : Bool)
    (s : State) : finish .ok sc dr rc (storeRecord r (completeInvCipher y (finish .ok true false false (setBlk ct s)))) =
      finish .ok sc dr rc (storeRecord r (completeInvCipher y s)) := rfl

/-- Settles O48: a rejected frame ends both commands alike, and an accepted one leaves its ciphertext whole in BLK, where
DECODE finds it. -/
theorem processIsFilterThenDecode : Obligations.ProcessIsFilterThenDecode := by
  intro s t hlegal hfilter
  rcases execFilter_outcomes hfilter with ⟨code, sigcmp, hcode, rfl, hprocess⟩ | ⟨ct, hl, hv, rfl⟩
  · exact ⟨fun _ => hprocess, fun hok => absurd ((statusResult_finish_eq_ok_iff ..).1 hok) hcode⟩
  · refine ⟨fun hne => absurd ((statusResult_finish_eq_ok_iff ..).2 rfl) hne, fun _ => ?_⟩
    obtain ⟨-, -, hconfig⟩ := hlegal
    have hk : keyComplete s = true := keyComplete_eq_true.2 (hconfig hl).2
    have hdecode := execDecode_of_allWritten (s := finish .ok true false false (setBlk ct s)) hk
      (allWritten_allOnes (by decide))
    rw [finish_storeRecord_completeInvCipher_filtered] at hdecode
    exact ⟨_, hdecode, (execProcess_of_accepted hl hk hv).trans (congrArg _ (finish_ok_process_eq_decode _))⟩

end Sys2Proof.Machine

/-! The S-box tables: inverse permutations, and the affine image of the multiplicative inverse (R132 to R134). -/

namespace Sys2Proof.Machine.Aes

/-- The affine map of R134, which the S-box applies to the multiplicative inverse. -/
def affine (b : Byte) : Byte :=
  b ^^^ b.rotateLeft 1 ^^^ b.rotateLeft 2 ^^^ b.rotateLeft 3 ^^^ b.rotateLeft 4 ^^^ 0x63#8

/-- What the affine map sends to `a`. -/
def affinePreimage (a : Byte) : Byte := a.rotateLeft 1 ^^^ a.rotateLeft 3 ^^^ a.rotateLeft 6 ^^^ 0x05#8

theorem affine_affinePreimage : ∀ a : Byte, affine (affinePreimage a) = a := by decide

/-- Undoing the affine map on an entry of the table gives the multiplicative inverse of its index (R134). -/
theorem gmul_affinePreimage_sbox : ∀ a : Byte, a ≠ 0#8 → gmul a (affinePreimage (sbox a)) = 1#8 := by decide

theorem affinePreimage_sbox_zero : affinePreimage (sbox 0#8) = 0#8 := by decide

@[simp] theorem invSbox_sbox : ∀ a : Byte, invSbox (sbox a) = a := by decide

/-- On the finite type of bytes a one-sided inverse is two-sided. -/
@[simp] theorem sbox_invSbox : ∀ a : Byte, sbox (invSbox a) = a :=
  have hleft : Function.LeftInverse invSbox sbox := invSbox_sbox
  hleft.rightInverse_of_surjective (Finite.surjective_of_injective hleft.injective)

/-- Settles O53: the byte whose affine image an entry is stands for the inverse of the entry's index. -/
theorem sboxMatchesDefinition : Obligations.SboxMatchesDefinition := by
  intro a
  refine ⟨invSbox_sbox a, sbox_invSbox a, affinePreimage (sbox a), ?_, (affine_affinePreimage (sbox a)).symm⟩
  by_cases ha : a = 0#8
  · exact .inl ⟨ha, ha ▸ affinePreimage_sbox_zero⟩
  · exact .inr (gmul_affinePreimage_sbox a ha)

@[simp] theorem invSubBytes_subBytes (s : Array4) : invSubBytes (subBytes s) = s := by
  simp [subBytes, invSubBytes, mapCols, mapCol]

@[simp] theorem subBytes_invSubBytes (s : Array4) : subBytes (invSubBytes s) = s := by
  simp [subBytes, invSubBytes, mapCols, mapCol]

end Sys2Proof.Machine.Aes

/-! ShiftRows and InvShiftRows by index (R135, R136). -/

namespace Sys2Proof.Machine.Aes

/-- `s[r, c]`, the byte at `r + 4c` of the block the state array stands for (R130). -/
def byteAt (s : Array4) (r c : Fin 4) : Byte := (store s)[r.val + 4 * c.val]

theorem byteAt_load (x : Block) (r c : Fin 4) : byteAt (load x) r c = x[r.val + 4 * c.val] := by
  simp only [byteAt, store_load]

theorem byteAt_shiftRows (s : Array4) (r c : Fin 4) : byteAt (shiftRows s) r c = byteAt s r (c + r) := by
  fin_cases r <;> fin_cases c <;> rfl

theorem byteAt_invShiftRows (s : Array4) (r c : Fin 4) : byteAt (invShiftRows s) r c = byteAt s r (c - r) := by
  fin_cases r <;> fin_cases c <;> rfl

/-- Settles O54: addition and subtraction of `Fin 4` are the two rotations of a row. -/
theorem rowShiftsByIndex : Obligations.RowShiftsByIndex := by
  refine ⟨invShiftRows_shiftRows, fun x r c => ⟨?shift, ?invShift⟩⟩
  case shift => exact (byteAt_shiftRows (load x) r c).trans (byteAt_load x r (c + r))
  case invShift =>
    have hrot : (c - r).val = (c.val + 4 - r.val) % 4 := by
      rw [Fin.val_sub]
      omega
    have hbyte := (byteAt_invShiftRows (load x) r c).trans (byteAt_load x r (c - r))
    simp only [hrot] at hbyte
    exact hbyte

end Sys2Proof.Machine.Aes

/-! MixColumns is of order four, and InvMixColumns is its third power (R137, R138). -/

namespace Sys2Proof.Machine.Aes

/-- A column with four times the sum of each byte and its opposite added to both. -/
def mixColTwice (c : Col) : Col :=
  ⟨c.r0 ^^^ xtime (xtime (c.r0 ^^^ c.r2)), c.r1 ^^^ xtime (xtime (c.r1 ^^^ c.r3)),
   c.r2 ^^^ xtime (xtime (c.r0 ^^^ c.r2)), c.r3 ^^^ xtime (xtime (c.r1 ^^^ c.r3))⟩

theorem mixCol_mixCol (c : Col) : mixCol (mixCol c) = mixColTwice c := by
  simp only [mixCol, mixColTwice, gmul_two, gmul_three, xtime_xor, Col.mk.injEq]
  refine ⟨?_, ?_, ?_, ?_⟩ <;> ac_nf <;> simp

/-- The multiplications by 0x0E, 0x0B, 0x0D and 0x09 are those by 2, 3, 1 and 1 after those by 5 and 4. -/
theorem invMixCol_eq (c : Col) : invMixCol c = mixCol (mixColTwice c) := by
  simp only [invMixCol, mixCol, mixColTwice, gmul_two, gmul_three, gmul_nine, gmul_eleven, gmul_thirteen, gmul_fourteen,
    xtime_xor, Col.mk.injEq]
  refine ⟨?_, ?_, ?_, ?_⟩ <;> ac_nf <;> simp

/-- What is added to two opposite bytes leaves their sum, so it is added twice and cancels. -/
theorem mixColTwice_mixColTwice (c : Col) : mixColTwice (mixColTwice c) = c := by
  simp [mixColTwice, xor_xor_xor_comm]

@[simp] theorem mixCol_invMixCol (c : Col) : mixCol (invMixCol c) = c := by
  rw [invMixCol_eq, mixCol_mixCol, mixColTwice_mixColTwice]

@[simp] theorem invMixCol_mixCol (c : Col) : invMixCol (mixCol c) = c := by
  rw [invMixCol_eq, ← mixCol_mixCol, mixCol_mixCol, mixCol_mixCol, mixColTwice_mixColTwice]

@[simp] theorem invMixColumns_mixColumns (s : Array4) : invMixColumns (mixColumns s) = s := by
  simp [invMixColumns, mixColumns, mapCols]

@[simp] theorem mixColumns_invMixColumns (s : Array4) : mixColumns (invMixColumns s) = s := by
  simp [invMixColumns, mixColumns, mapCols]

/-- Settles O55: column by column, both are the fourth power of MixColumns. -/
theorem mixColumnsInverse : Obligations.MixColumnsInverse := fun s =>
  ⟨invMixColumns_mixColumns s, mixColumns_invMixColumns s⟩

end Sys2Proof.Machine.Aes

/-! Cipher and InvCipher round by round (R141, R142). -/

namespace Sys2Proof.Machine.Aes

/-- SubBytes and ShiftRows, with which each round of Cipher begins and the last one does without MixColumns. -/
def substitute (s : Array4) : Array4 := shiftRows (subBytes s)

/-- InvShiftRows and InvSubBytes, with which each round of InvCipher begins. -/
def invSubstitute (s : Array4) : Array4 := invSubBytes (invShiftRows s)

@[simp] theorem invSubstitute_substitute (s : Array4) : invSubstitute (substitute s) = s := by
  simp [substitute, invSubstitute]

@[simp] theorem substitute_invSubstitute (s : Array4) : substitute (invSubstitute s) = s := by
  simp [substitute, invSubstitute]

theorem cipherRound_eq (w : List Col) (s : Array4) (n : Nat) :
    cipherRound w s n = addRoundKey (roundKey w n) (mixColumns (substitute s)) := rfl

theorem invCipherRound_eq (w : List Col) (s : Array4) (n : Nat) :
    invCipherRound w s n = invMixColumns (addRoundKey (roundKey w n) (invSubstitute s)) := rfl

/-- The rounds that end with a MixColumns (R141). -/
def fullRounds : List Nat := [1, 2, 3, 4, 5, 6, 7, 8, 9]

theorem cipher_eq (k x : Block) : cipher k x = store (addRoundKey (roundKey (keyExpansion k) 10) (substitute
    (fullRounds.foldl (cipherRound (keyExpansion k)) (addRoundKey (roundKey (keyExpansion k) 0) (load x))))) := rfl

theorem invCipher_eq (k y : Block) : invCipher k y = store (addRoundKey (roundKey (keyExpansion k) 0) (invSubstitute
    (fullRounds.reverse.foldl (invCipherRound (keyExpansion k))
      (addRoundKey (roundKey (keyExpansion k) 10) (load y))))) := rfl

/-- A round of InvCipher, begun where the next round of Cipher has substituted, ends where this round did. -/
theorem invCipherRound_substitute_cipherRound (w : List Col) (s : Array4) (n : Nat) :
    invCipherRound w (substitute (cipherRound w s n)) n = substitute s := by
  rw [invCipherRound_eq, cipherRound_eq, invSubstitute_substitute, addRoundKey_addRoundKey, invMixColumns_mixColumns]

theorem cipherRound_invSubstitute_invCipherRound (w : List Col) (s : Array4) (n : Nat) :
    cipherRound w (invSubstitute (invCipherRound w s n)) n = invSubstitute s := by
  rw [cipherRound_eq, invCipherRound_eq, substitute_invSubstitute, mixColumns_invMixColumns, addRoundKey_addRoundKey]

/-- Rounds `g`, run in reverse order, undo rounds `f` through `link`, when one round does. -/
theorem foldl_reverse_of_undo {α β : Type} {f g : α → β → α} {link : α → α}
    (hundo : ∀ s n, g (link (f s n)) n = link s) (ns : List β) (s : α) :
    ns.reverse.foldl g (link (ns.foldl f s)) = link s := by
  induction ns generalizing s with
  | nil => rfl
  | cons n ns ih =>
    calc (n :: ns).reverse.foldl g (link ((n :: ns).foldl f s))
        = g (ns.reverse.foldl g (link (ns.foldl f (f s n)))) n := by
          rw [List.reverse_cons, List.foldl_append, List.foldl_cons, List.foldl_cons, List.foldl_nil]
      _ = link s := by rw [ih, hundo]

theorem foldl_invCipherRound_undo (w : List Col) (ns : List Nat) (s : Array4) :
    ns.reverse.foldl (invCipherRound w) (substitute (ns.foldl (cipherRound w) s)) = substitute s :=
  foldl_reverse_of_undo (invCipherRound_substitute_cipherRound w) ns s

theorem foldl_cipherRound_undo (w : List Col) (ns : List Nat) (s : Array4) :
    ns.foldl (cipherRound w) (invSubstitute (ns.reverse.foldl (invCipherRound w) s)) = invSubstitute s := by
  have hundo := foldl_reverse_of_undo (cipherRound_invSubstitute_invCipherRound w) ns.reverse s
  rwa [List.reverse_reverse] at hundo

@[simp] theorem invCipher_cipher (k x : Block) : invCipher k (cipher k x) = x := by
  rw [cipher_eq, invCipher_eq, load_store, addRoundKey_addRoundKey, foldl_invCipherRound_undo,
    invSubstitute_substitute, addRoundKey_addRoundKey, store_load]

@[simp] theorem cipher_invCipher (k y : Block) : cipher k (invCipher k y) = y := by
  rw [invCipher_eq, cipher_eq, load_store, addRoundKey_addRoundKey, foldl_cipherRound_undo,
    substitute_invSubstitute, addRoundKey_addRoundKey, store_load]

/-- Settles O52: each cipher's rounds in reverse order undo the other's. -/
theorem cipherInverseLaw : Obligations.CipherInverseLaw := fun k x => ⟨invCipher_cipher k x, cipher_invCipher k x⟩

end Sys2Proof.Machine.Aes

/-! The key schedule (R140). -/

namespace Sys2Proof.Machine.Aes

/-- Every word from index 4 on is the next word of the recurrence. -/
def ObeysRecurrence (w : List Col) : Prop :=
  ∀ i, 4 ≤ i → i < w.length → wordAt w i = nextWord i (wordAt w (i - 1)) (wordAt w (i - 4))

theorem wordAt_append {w v : List Col} {i : Nat} (h : i < w.length) : wordAt (w ++ v) i = wordAt w i :=
  List.getD_append w v _ i h

theorem wordAt_append_length (w : List Col) (c : Col) : wordAt (w ++ [c]) w.length = c := by
  simp [wordAt]

theorem wordAt_reverse {w : List Col} {i : Nat} (h : i < w.length) :
    wordAt w.reverse i = wordAt w (w.length - 1 - i) := by
  simp [wordAt, List.getElem?_reverse h]

/-- R140's two cases differ in what is added to the word four back. -/
theorem nextWord_eq (i : Nat) (last fourBack : Col) : nextWord i last fourBack = xorCol fourBack
    (if i % 4 = 0 then xorCol (subWord (rotWord last)) ⟨roundConstant (i / 4), 0#8, 0#8, 0#8⟩ else last) := by
  rw [nextWord]
  split <;> rfl

/-- A schedule, oldest word first, with the word added that the recurrence gives. -/
def appendNext (w : List Col) : List Col :=
  w ++ [nextWord w.length (wordAt w (w.length - 1)) (wordAt w (w.length - 4))]

@[simp] theorem length_appendNext (w : List Col) : (appendNext w).length = w.length + 1 := List.length_append

theorem wordAt_appendNext {w : List Col} {i : Nat} (h : i < w.length) : wordAt (appendNext w) i = wordAt w i :=
  wordAt_append h

theorem wordAt_appendNext_length (w : List Col) :
    wordAt (appendNext w) w.length = nextWord w.length (wordAt w (w.length - 1)) (wordAt w (w.length - 4)) :=
  wordAt_append_length w _

theorem obeysRecurrence_appendNext {w : List Col} (h : ObeysRecurrence w) : ObeysRecurrence (appendNext w) := by
  intro i hi hlt
  rw [length_appendNext] at hlt
  rw [wordAt_appendNext (i := i - 1) (by omega), wordAt_appendNext (i := i - 4) (by omega)]
  rcases Nat.lt_succ_iff_lt_or_eq.1 hlt with hold | rfl
  · rw [wordAt_appendNext hold, h i hi hold]
  · exact wordAt_appendNext_length w

/-- One step of `expandFrom` on a schedule held newest first. -/
theorem expandFrom_succ (n i : Nat) {ws : List Col} (h : 4 ≤ ws.length) :
    expandFrom (n + 1) i ws = expandFrom n (i + 1) (nextWord i (wordAt ws 0) (wordAt ws 3) :: ws) :=
  match ws, h with
  | _ :: _ :: _ :: _ :: _, _ => rfl

theorem expandFrom_reverse (n : Nat) {w : List Col} (h : 4 ≤ w.length) :
    expandFrom n w.length w.reverse = (appendNext^[n] w).reverse := by
  induction n generalizing w with
  | zero => rfl
  | succ n ih =>
    have hlast : wordAt w.reverse 0 = wordAt w (w.length - 1) := wordAt_reverse (by omega)
    have hfourBack : wordAt w.reverse 3 = wordAt w (w.length - 4) := wordAt_reverse (by omega)
    have hrev : nextWord w.length (wordAt w (w.length - 1)) (wordAt w (w.length - 4)) :: w.reverse =
        (appendNext w).reverse := List.reverse_concat.symm
    rw [expandFrom_succ n _ (by simpa using h), hlast, hfourBack, hrev, ← length_appendNext, ih (by simp; omega),
      Function.iterate_succ_apply]

theorem length_iterate_appendNext (n : Nat) (w : List Col) : (appendNext^[n] w).length = w.length + n := by
  induction n generalizing w with
  | zero => rfl
  | succ n ih =>
    rw [Function.iterate_succ_apply, ih, length_appendNext]
    omega

theorem wordAt_iterate_appendNext (n : Nat) {w : List Col} {i : Nat} (h : i < w.length) :
    wordAt (appendNext^[n] w) i = wordAt w i := by
  induction n generalizing w with
  | zero => rfl
  | succ n ih => rw [Function.iterate_succ_apply, ih (by simp; omega), wordAt_appendNext h]

/-- The words of the key, with which the schedule begins (R140). -/
def keyWords (k : Block) : List Col := [(load k).c0, (load k).c1, (load k).c2, (load k).c3]

theorem keyExpansion_eq (k : Block) : keyExpansion k = appendNext^[40] (keyWords k) := by
  have hexpand := expandFrom_reverse 40 (w := keyWords k) (Nat.le_refl 4)
  exact (congrArg List.reverse hexpand).trans (List.reverse_reverse _)

/-- The key's own words are too few for the recurrence to speak of, and each further word extends it. -/
theorem obeysRecurrence_keyExpansion (k : Block) : ObeysRecurrence (keyExpansion k) := by
  have hkey : ObeysRecurrence (keyWords k) := fun i hi hlt => absurd hlt (Nat.not_lt.2 hi)
  rw [keyExpansion_eq]
  exact Function.Iterate.rec ObeysRecurrence hkey (fun _ => obeysRecurrence_appendNext) 40

/-- Settles O56: the schedule is the key's words with the next word of the recurrence added forty times. -/
theorem keyScheduleRecurrence : Obligations.KeyScheduleRecurrence := by
  intro k
  have hlen : (keyExpansion k).length = 44 := keyExpansion_eq k ▸ length_iterate_appendNext 40 (keyWords k)
  refine ⟨hlen, fun i => ?keyWord, fun i hi hlt => ?laterWord⟩
  case keyWord =>
    have hword : wordAt (keyExpansion k) i = wordAt (keyWords k) i :=
      keyExpansion_eq k ▸ wordAt_iterate_appendNext 40 i.isLt
    rw [hword]
    fin_cases i <;> rfl
  case laterWord => rw [obeysRecurrence_keyExpansion k i hi (hlen.symm ▸ hlt), nextWord_eq]

end Sys2Proof.Machine.Aes

/-! DECRYPT and ENCRYPT, and DECODE as DECRYPT and then EXTRACT (R93, R150, R151, R187, R188). -/

namespace Sys2Proof.Machine

theorem execDecrypt_of_keyIncomplete {s : State} (hk : keyComplete s = false) :
    execDecrypt s = .next (finish .decryptionFailed false false false s) := by
  simp [execDecrypt, hk]

theorem execDecrypt_of_hole {s : State} {k : Nat} (hk : keyComplete s = true) (hole : FirstHole s.blkW 0 16 k) :
    execDecrypt s = .fault (.unwrittenRead .blk k) := by
  have hread : readBlk s = .error (.unwrittenRead .blk k) := readRange_of_firstHole hole
  simp [execDecrypt, hk, hread]

theorem execDecrypt_of_allWritten {s : State} (hk : keyComplete s = true) (hw : AllWritten s.blkW 0 16) :
    execDecrypt s = .next (finish .ok false true false (completeInvCipher s.blk s)) := by
  have hread : readBlk s = .ok s.blk := readRange_of_allWritten hw
  simp [execDecrypt, hk, hread]

theorem execEncrypt_of_keyIncomplete {s : State} (hk : keyComplete s = false) :
    execEncrypt s = .next (finish .notConfigured false false false s) := by
  simp [execEncrypt, hk]

theorem execEncrypt_of_hole {s : State} {k : Nat} (hk : keyComplete s = true) (hole : FirstHole s.blkW 0 16 k) :
    execEncrypt s = .fault (.unwrittenRead .blk k) := by
  have hread : readBlk s = .error (.unwrittenRead .blk k) := readRange_of_firstHole hole
  simp [execEncrypt, hk, hread]

theorem execEncrypt_of_allWritten {s : State} (hk : keyComplete s = true) (hw : AllWritten s.blkW 0 16) :
    execEncrypt s = .next (finish .ok false false false (setBlk (Aes.cipher s.key s.blk) s)) := by
  have hread : readBlk s = .ok s.blk := readRange_of_allWritten hw
  simp [execEncrypt, hk, hread]

/-- Settles O19: the key check, then the read of BLK, decide the three cases. -/
theorem decryptCommand : Obligations.DecryptCommand := by
  intro s
  refine ⟨fun hk => ?keyIncomplete, fun hk k hole => ?hole, fun hk hw => ?done⟩
  case keyIncomplete =>
    exact (execDecrypt_of_keyIncomplete (keyComplete_eq_false.2 hk)).trans
      (congrArg _ (finish_decryptionFailed s))
  case hole => exact execDecrypt_of_hole (keyComplete_eq_true.2 hk) hole
  case done =>
    exact (execDecrypt_of_allWritten (keyComplete_eq_true.2 hk) hw).trans
      (congrArg _ (finish_ok_decrypt (completeInvCipher s.blk s)))

/-- Settles O20: as DECRYPT, with its own failure code and without the count. -/
theorem encryptCommand : Obligations.EncryptCommand := by
  intro s
  refine ⟨fun hk => ?keyIncomplete, fun hk k hole => ?hole, fun hk hw => ?done⟩
  case keyIncomplete =>
    exact (execEncrypt_of_keyIncomplete (keyComplete_eq_false.2 hk)).trans
      (congrArg _ (finish_notConfigured s))
  case hole => exact execEncrypt_of_hole (keyComplete_eq_true.2 hk) hole
  case done =>
    exact (execEncrypt_of_allWritten (keyComplete_eq_true.2 hk) hw).trans
      (congrArg _ (finish_ok_plain (setBlk (Aes.cipher s.key s.blk) s)))

theorem execDecode_of_keyIncomplete {s : State} (hk : keyComplete s = false) :
    execDecode s = .next (finish .decryptionFailed false false false s) := by
  simp [execDecode, hk]

/-- DECODE ends as EXTRACT does, with DECRUN set (R187, R188). -/
theorem finish_ok_decode_eq_extract (s : State) :
    finish .ok false true true s =
      { finish .ok false false true s with status := (finish .ok false false true s).status ||| 0x20#8 } := by
  have hor : 0xC1#8 ||| 0x20#8 = 0xE1#8 := by decide
  rw [finish_ok_decode, finish_ok_extract, ← hor]

/-- Storing a record keeps nothing of the STATUS that DECRYPT left. -/
theorem finish_storeRecord_decrypted (r : TelemetryRecord) (sc dr rc : Bool) (s : State) :
    finish .ok sc dr rc (storeRecord r (finish .ok false true false s)) = finish .ok sc dr rc (storeRecord r s) := rfl

/-- Settles O49: an incomplete key ends both commands alike, and a plaintext is whole in BLK, where EXTRACT finds it. -/
theorem decodeIsDecryptThenExtract : Obligations.DecodeIsDecryptThenExtract := by
  intro s t hdecrypt
  rcases execDecrypt_next hdecrypt with ⟨hk, rfl⟩ | ⟨hk, hw, rfl⟩
  · exact ⟨fun _ => execDecode_of_keyIncomplete hk,
      fun hok => absurd ((statusResult_finish_eq_ok_iff ..).1 hok) (by decide)⟩
  · refine ⟨fun hne => absurd ((statusResult_finish_eq_ok_iff ..).2 rfl) hne, fun _ => ?_⟩
    have hextract := extractAndFinish_of_allWritten (sc := false) (dr := false)
      (s := finish .ok false true false (completeInvCipher s.blk s)) (allWritten_allOnes (by decide))
    rw [finish_storeRecord_decrypted] at hextract
    exact ⟨_, hextract, (execDecode_of_allWritten hk hw).trans (congrArg _ (finish_ok_decode_eq_extract _))⟩

/-- Settles O50: ENCRYPT leaves its ciphertext whole in BLK under the same key, where both commands find and undo it. -/
theorem encryptThenDecodeRoundTrip : Obligations.EncryptThenDecodeRoundTrip := by
  intro s hkey hw
  have hk : keyComplete s = true := keyComplete_eq_true.2 hkey
  have hblk : Aes.invCipher s.key (Aes.cipher s.key s.blk) = s.blk := Aes.invCipher_cipher s.key s.blk
  have hrecord : recordOf (Aes.invCipher s.key (Aes.cipher s.key s.blk)) = recordOf s.blk := congrArg recordOf hblk
  have hwritten : AllWritten (BitVec.allOnes 16) 0 16 := allWritten_allOnes (by decide)
  refine ⟨_, _, _, execEncrypt_of_allWritten hk hw, execDecode_of_allWritten hk hwritten,
    execDecrypt_of_allWritten hk hwritten, ?_⟩
  exact ⟨hblk, congrArg TelemetryRecord.temperature hrecord, congrArg TelemetryRecord.humidity hrecord,
    congrArg TelemetryRecord.battery hrecord, hblk, rfl⟩

end Sys2Proof.Machine

/-! EXTRACT and DECODE (R187, R188). -/

namespace Sys2Proof.Machine

theorem extractAndFinish_of_hole {sc dr : Bool} {s : State} {k : Nat} (hole : FirstHole s.blkW 0 5 k) :
    extractAndFinish sc dr s = .fault (.unwrittenRead .blk k) := by
  have hread : extractFn s = .error (.unwrittenRead .blk k) := readRange_of_firstHole hole
  simp [extractAndFinish, hread]

theorem execDecode_of_hole {s : State} {k : Nat} (hk : keyComplete s = true) (hole : FirstHole s.blkW 0 16 k) :
    execDecode s = .fault (.unwrittenRead .blk k) := by
  have hread : readBlk s = .error (.unwrittenRead .blk k) := readRange_of_firstHole hole
  simp [execDecode, hk, hread]

/-- Settles O21: the read of the record's five bytes decides, and `BE16` as a number gives the fields. -/
theorem extractCommand : Obligations.ExtractCommand := by
  intro s
  refine ⟨fun k hole => ?hole, fun hw => ?done⟩
  case hole => exact extractAndFinish_of_hole hole
  case done =>
    exact ⟨_, _, be16_toNat s.blk[0] s.blk[1], be16_toNat s.blk[2] s.blk[3],
      (extractAndFinish_of_allWritten hw).trans (congrArg _ (finish_ok_extract (storeRecord (recordOf s.blk) s)))⟩

/-- Settles O22: the key check, then the read of BLK, decide the three cases. -/
theorem decodeCommand : Obligations.DecodeCommand := by
  intro s
  refine ⟨fun hk => ?keyIncomplete, fun hk k hole => ?hole, fun hk hw => ⟨_, rfl, ?done⟩⟩
  case keyIncomplete =>
    exact (execDecode_of_keyIncomplete (keyComplete_eq_false.2 hk)).trans (congrArg _ (finish_decryptionFailed s))
  case hole => exact execDecode_of_hole (keyComplete_eq_true.2 hk) hole
  case done =>
    exact (execDecode_of_allWritten (keyComplete_eq_true.2 hk) hw).trans (congrArg _ (finish_ok_decode
      (storeRecord (recordOf (Aes.invCipher s.key s.blk)) (completeInvCipher s.blk s))))

end Sys2Proof.Machine

/-! EMIT after a command (R189). -/

namespace Sys2Proof.Machine

@[simp] theorem statusEmit_statusByte (c : ResultCode) (sc dr em rc : Bool) :
    statusEmit (statusByte c sc dr em rc) = em := by
  simp only [statusEmit, statusByte, BitVec.getLsbD_or, BitVec.getLsbD_shiftLeft, flagByte_getLsbD]
  simp [-BitVec.getLsbD_eq_getElem, resultNumber_getLsbD_high]

/-- NONE is the one outcome code of number 0 (R39). -/
theorem resultNumber_eq_zero_iff (c : ResultCode) : (resultNumber c).setWidth 4 = 0#4 ↔ c = .none := by
  cases c <;> decide

/-- The codes 2 to 4 are the structural rejections (R39), which are emitted only when verbose. -/
theorem emitPolicy_of_rejection {c : ResultCode} (hlo : 2 ≤ ((resultNumber c).setWidth 4).toNat)
    (hhi : ((resultNumber c).setWidth 4).toNat ≤ 4) (rc verbose : Bool) : emitPolicy c rc verbose = verbose := by
  cases c with
  | tooShort | signatureMismatch | badCiphertextLength => rfl
  | none | ok => exact absurd hlo (by decide)
  | decryptionFailed | malformedPlaintext | notConfigured | badCommand => exact absurd hhi (by decide)

/-- The codes from 5 on are always emitted. -/
theorem emitPolicy_of_failure {c : ResultCode} (h : 5 ≤ ((resultNumber c).setWidth 4).toNat) (rc verbose : Bool) :
    emitPolicy c rc verbose = true := by
  cases c with
  | decryptionFailed | malformedPlaintext | notConfigured | badCommand => rfl
  | none | ok | tooShort | signatureMismatch | badCiphertextLength => exact absurd h (by decide)

/-- The STATUS of the outcome NONE is zero (R24, R39). -/
theorem statusByte_none : statusByte .none false false false false = 0x00#8 := by decide

/-- Every command but NOP leaves a STATUS whose EMIT is the policy's for the verbosity it leaves, with a record only on
OK: CLEAR's zeros are those of the outcome NONE (R200, R203). -/
theorem CommandNext.status_eq {c : Instr} {s t : State} (h : CommandNext s c t) (hne : c ≠ .nop) :
    ∃ code sc dr rc, t.status = statusByte code sc dr (emitPolicy code rc t.verbose) rc ∧
      (rc = true → code = .ok) := by
  cases h with
  | nop => exact absurd rfl hne
  | clear => exact ⟨.none, false, false, false, statusByte_none.symm, nofun⟩
  | badCommand | failed | keyMissing => exact ⟨_, _, _, _, rfl, nofun⟩
  | alreadyLocked | lock | filter | encrypt | decrypt | extract | decode | process =>
    exact ⟨_, _, _, _, rfl, fun _ => rfl⟩

/-- Settles O41: the STATUS of `CommandNext.status_eq`, by the ranges of its outcome code. -/
theorem emitFollowsPolicy : Obligations.EmitFollowsPolicy := by
  intro i c s t hi hne h
  rcases exec_next h with ⟨c', hc, hn⟩ | ⟨hc, -⟩
  · obtain rfl : c' = c := Option.some.inj (hc.symm.trans hi)
    obtain ⟨code, sc, dr, rc, hstatus, hrec⟩ := hn.status_eq hne
    simp only [hstatus, statusResult_statusByte, statusEmit_statusByte, statusRec_statusByte,
      resultNumber_eq_zero_iff, resultNumber_eq_one_iff]
    refine ⟨fun hnone => ?none, fun hok => ?ok, fun hlo hhi => emitPolicy_of_rejection hlo hhi rc t.verbose,
      fun hfail => emitPolicy_of_failure hfail rc t.verbose, hrec⟩
    case none => rw [hnone, emitPolicy]
    case ok => rw [hok, emitPolicy]
  · exact absurd (hc.symm.trans hi) nofun

end Sys2Proof.Machine

/-! The values of the result registers and their rendering (R184, R185). -/

namespace Sys2Proof.Machine

theorem hundredths_mul_hundred (v : HalfWord) : hundredths v * 100 = (v.toNat : Rat) :=
  div_mul_cancel₀ _ (by norm_num)

theorem hundredths_nonneg (v : HalfWord) : 0 ≤ hundredths v :=
  div_nonneg (Nat.cast_nonneg _) (by norm_num)

/-- A raw value of 16 bits stands for 655.35 at most. -/
theorem hundredths_le (v : HalfWord) : hundredths v ≤ 65535 / 100 := by
  have hmax : (v.toNat : Rat) ≤ 65535 := by exact_mod_cast Nat.le_of_lt_succ v.isLt
  exact div_le_div_of_nonneg_right hmax (by norm_num)

/-- `dec(n)` is the library's numeral (R185). -/
theorem decimal_eq_toString (n : Nat) : decimal n = toString n := rfl

/-- Settles O57: the digits are the quotient by 100 and the tens and units of the remainder. -/
theorem renderingDigits : Obligations.RenderingDigits := by
  intro v
  refine ⟨v.toNat / 100, v.toNat % 100 / 10, v.toNat % 10, by omega, by omega, by omega, ?_⟩
  simp only [renderHundredths, decimal_eq_toString]

/-- Settles O58: both scaled registers are hundredths of 16 bits, and the battery is a byte. -/
theorem scaledValuesExact : Obligations.ScaledValuesExact := fun s =>
  ⟨hundredths_mul_hundred s.resTemp, hundredths_mul_hundred s.resHum, rfl,
    hundredths_nonneg s.resTemp, hundredths_le s.resTemp, hundredths_nonneg s.resHum, hundredths_le s.resHum,
    Nat.le_of_lt_succ s.resBatt.isLt⟩

end Sys2Proof.Machine

/-! NOP, the reserved opcodes, CLEAR and LOCK (R202 to R205). -/

namespace Sys2Proof.Machine

/-- Settles O14: NOP is the state itself, and CMD holds no value of its own (R28). -/
theorem nopChangesNothing : Obligations.NopChangesNothing := fun _ =>
  ⟨rfl, rfl, readReturns_address (r := .cmd) rfl⟩

/-- Settles O23: all seven are reserved instructions, and every one of those is BAD_COMMAND. -/
theorem reservedCommands : Obligations.ReservedCommands := by
  intro opc s i hi
  have hreserved : isReserved i = true := List.all_eq_true.1 rfl i hi
  rw [exec_of_isReserved hreserved, badCommand_eq]

/-- After CLEAR every byte of BLK is written and reads as zero (R203). -/
theorem readReg_blk_clearResult (i : Fin 16) (s : State) : readReg (.blk i) (clearResult s) = .ok 0x00#8 := by
  have hwritten : AllWritten (BitVec.allOnes 16) i 1 := allWritten_allOnes i.isLt
  have hzero : (Vector.replicate 16 0x00#8)[i] = 0x00#8 := Vector.getElem_replicate i.isLt
  exact (readRange_of_allWritten hwritten).trans (congrArg Except.ok hzero)

/-- CLEAR leaves a FRAME_LEN of 0, which the filter rejects before it reads anything (R112, R203). -/
theorem filterFn_clearResult (s : State) : filterFn (clearResult s) = .ok .tooShort :=
  filterFn_of_short (Nat.zero_lt_succ 21)

/-- Settles O15: BLK is all written zeros, and both commands reject a frame of length 0. -/
theorem clearDiscardsResult : Obligations.ClearDiscardsResult := by
  intro s
  refine ⟨clearResult s, rfl, rfl, fun i => ?blk, fun hl => ⟨?filter, ?process⟩⟩
  case blk => exact readReturns_address (r := .blk i) (readReg_blk_clearResult i s)
  case filter =>
    exact (execFilter_of_verdict (s := clearResult s) hl (filterFn_clearResult s)).trans
      (congrArg _ (finish_tooShort (clearResult s)))
  case process =>
    exact (execProcess_of_rejected (s := clearResult s) hl (filterFn_clearResult s) nofun).trans
      (congrArg _ (finish_tooShort (clearResult s)))

/-- Written-bits are all 1 exactly when every byte has been written (R30, R31). -/
theorem eq_allOnes_iff {n : Nat} {w : BitVec n} : w = BitVec.allOnes n ↔ ∀ i : Fin n, w.getLsbD i = true := by
  constructor
  · rintro rfl i
    simp
  · intro h
    ext i hi
    simpa [BitVec.getLsbD_eq_getElem hi] using h ⟨i, hi⟩

theorem sigComplete_iff {s : State} : sigComplete s = true ↔ ∀ i : Fin 6, s.sigW.getLsbD i = true :=
  beq_iff_eq.trans eq_allOnes_iff

theorem keyComplete_iff {s : State} : keyComplete s = true ↔ ∀ i : Fin 16, s.keyW.getLsbD i = true :=
  beq_iff_eq.trans eq_allOnes_iff

theorem execLock_of_locked {s : State} (hl : s.locked = true) :
    execLock s = .next (finish .ok false false false s) := by
  simp [execLock, hl]

theorem execLock_of_complete {s : State} (hl : s.locked = false) (hs : sigComplete s = true)
    (hk : keyComplete s = true) : execLock s = .next (finish .ok false false false (setLocked s)) := by
  simp [execLock, hl, hs, hk]

theorem execLock_of_incomplete {s : State} (hl : s.locked = false)
    (h : ¬ (sigComplete s = true ∧ keyComplete s = true)) :
    execLock s = .next (finish .notConfigured false false false s) := by
  rw [execLock, hl, if_neg nofun, if_neg (mt Bool.and_eq_true_iff.1 h)]

/-- Settles O16: the lock, then the two completeness checks, which look at every written-bit, decide. -/
theorem lockChecksConfiguration : Obligations.LockChecksConfiguration := by
  intro s
  refine ⟨fun hl => ?locked, fun hl hs hk => ?complete, fun hl hmissing => ?incomplete⟩
  case locked => exact (execLock_of_locked hl).trans (congrArg _ (finish_ok_plain s))
  case complete =>
    exact (execLock_of_complete hl (sigComplete_iff.2 hs) (keyComplete_iff.2 hk)).trans
      (congrArg _ (finish_ok_plain (setLocked s)))
  case incomplete =>
    refine (execLock_of_incomplete hl ?_).trans (congrArg _ (finish_notConfigured s))
    rintro ⟨hs, hk⟩
    rcases hmissing with ⟨i, hi⟩ | ⟨i, hi⟩
    · exact absurd ((sigComplete_iff.1 hs i).symm.trans hi) nofun
    · exact absurd ((keyComplete_iff.1 hk i).symm.trans hi) nofun

end Sys2Proof.Machine

/-! PROCESS case by case (R110, R201). -/

namespace Sys2Proof.Machine

theorem execProcess_of_error {s : State} {f : Fault} (hl : s.locked = true) (hf : filterFn s = .error f) :
    execProcess s = .fault f := by
  simp [execProcess, hl, hf]

theorem execProcess_of_keyIncomplete {s : State} {ct : Block} (hl : s.locked = true) (hk : keyComplete s = false)
    (hv : filterFn s = .ok (.accepted ct)) :
    execProcess s = .next (finish .decryptionFailed true false false s) := by
  simp [execProcess, hl, hv, hk]

/-- The filter accepts a frame of 24 bytes that are written from the signature on (R110). -/
theorem filterFn_of_wholeFrame {s : State} (h24 : s.frameLen.toNat = 24) (hw : AllWritten s.frameW 2 22)
    (hs : AllWritten s.sigW 0 6) (hm : SignatureMatches s) :
    filterFn s = .ok (.accepted (ciphertextOf s.frame)) :=
  filterFn_of_accepted (hw.mono (by decide) (by decide)) hs h24 hm (hw.mono (by decide) (by decide))

/-- Settles O18: each case is the answer of `FilterFn` in that case, and past the filter the key decides. -/
theorem processCommand : Obligations.ProcessCommand := by
  intro s
  refine ⟨fun hl => ?unlocked, fun hl hlen => ?tooShort, fun hl hlen k hk => ?frameHole, fun hl hlen hw k hk => ?sigHole,
    fun hl hlen hw hs hne => ?mismatch, fun hl hlen h24 hw hs hm => ?badLength,
    fun hl h24 hw hs hm k hk => ?ciphertextHole, fun hl h24 hw hs hm hk => ?keyIncomplete,
    fun hl h24 hw hs hm hk => ?done⟩
  case unlocked => exact (execProcess_of_unlocked hl).trans (congrArg _ (finish_notConfigured s))
  case tooShort =>
    exact (execProcess_of_rejected hl (filterFn_of_short hlen) nofun).trans (congrArg _ (finish_tooShort s))
  case frameHole => exact execProcess_of_error hl (filterFn_of_frameHole hlen hk)
  case sigHole => exact execProcess_of_error hl (filterFn_of_sigHole hlen hw hk)
  case mismatch =>
    exact (execProcess_of_rejected hl (filterFn_of_mismatch hw hs hlen hne) nofun).trans
      (congrArg _ (finish_signatureMismatch s))
  case badLength =>
    exact (execProcess_of_rejected hl (filterFn_of_badLength hw hs hlen hm h24) nofun).trans
      (congrArg _ (finish_badCiphertextLength s))
  case ciphertextHole => exact execProcess_of_error hl (filterFn_of_ciphertextHole hw hs h24 hm hk)
  case keyIncomplete =>
    exact (execProcess_of_keyIncomplete hl (keyComplete_eq_false.2 hk) (filterFn_of_wholeFrame h24 hw hs hm)).trans
      (congrArg _ (finish_decryptionFailed_process s))
  case done =>
    have hprocess := execProcess_of_accepted hl (keyComplete_eq_true.2 hk) (filterFn_of_wholeFrame h24 hw hs hm)
    exact ⟨ciphertextOf s.frame, _, ciphertextOf_getElem s.frame, rfl,
      hprocess.trans (congrArg _ (finish_ok_process _))⟩

end Sys2Proof.Machine

/-! What a failed command changes (R200). -/

namespace Sys2Proof.Machine

theorem isReserved_eq_false_of_mem_fallible {c : Instr} (h : c ∈ fallible) : isReserved c = false := by
  have hall : ∀ c ∈ fallible, isReserved c = false := by decide
  exact hall c h

/-- A command that did not end with OK wrote STATUS and, if its opcode is reserved, ERR.BAD_CMD; NOP and CLEAR have no
failure (R200, R205). -/
theorem CommandNext.eq_of_not_ok {c : Instr} {s t : State} (h : CommandNext s c t) (hnop : c ≠ .nop)
    (hclear : c ≠ .clear) (hresult : statusResult t.status ≠ 1#4) :
    t = { s with status := t.status, err := if isReserved c then s.err ||| 0x02#8 else s.err } := by
  cases h with
  | nop => exact absurd rfl hnop
  | clear => exact absurd rfl hclear
  | badCommand hc =>
    rw [hc]
    rfl
  | failed hc =>
    rw [isReserved_eq_false_of_mem_fallible hc]
    rfl
  | keyMissing => rfl
  | alreadyLocked | lock | filter | encrypt | decrypt | extract | decode | process =>
    exact absurd ((statusResult_finish_eq_ok_iff ..).2 rfl) hresult

/-- Settles O40: an instruction that runs a command leaves what that command can, and `CommandNext.eq_of_not_ok` says
what of it a failure is. -/
theorem failedCommandChangesOnlyStatus : Obligations.FailedCommandChangesOnlyStatus := by
  intro i c s t hi hnop hclear h hresult
  rcases exec_next h with ⟨c', hc, hn⟩ | ⟨hc, -⟩
  · obtain rfl : c' = c := Option.some.inj (hc.symm.trans hi)
    exact hn.eq_of_not_ok hnop hclear hresult
  · exact absurd (hc.symm.trans hi) nofun

end Sys2Proof.Machine

/-! PROCESS and DECODE do not depend on what ran before (R206). -/

namespace Sys2Proof.Machine

/-- How a command that writes a record ends once it has the block `y` to decrypt (R188, R201). -/
def finishDecoded (sigcmp : Bool) (y : Block) (s : State) : State :=
  finish .ok sigcmp true true (storeRecord (recordOf (Aes.invCipher s.key y)) (completeInvCipher y s))

/-- An ending without a record writes the same STATUS to both states, and nothing else to either. -/
theorem sameResults_finish {s s' : State} (hverbose : s'.verbose = s.verbose) (code : ResultCode) (sc dr : Bool) :
    SameResults s (finish code sc dr false s) s' (finish code sc dr false s') := by
  refine ⟨?status, ?advance, ?advanceMem, fun hrec => ?record,
    fun _ => ⟨rfl, rfl, rfl, rfl, rfl, rfl, rfl, rfl, rfl, rfl⟩⟩
  case status => rw [finish_status, finish_status, hverbose]
  case advance => simp
  case advanceMem => simp
  case record => simp at hrec

/-- An ending with a record writes what the block and the key make of it to both states, and counts once in both. -/
theorem sameResults_finishDecoded {s s' : State} (hkey : s'.key = s.key) (sigcmp : Bool) (y : Block) :
    SameResults s (finishDecoded sigcmp y s) s' (finishDecoded sigcmp y s') := by
  have hcount (r : State) : (finishDecoded sigcmp y r).decCount - r.decCount = 1#8 :=
    add_sub_cancel_left r.decCount 1#8
  have hblk : (finishDecoded sigcmp y s').blk = (finishDecoded sigcmp y s).blk :=
    congrArg (Aes.invCipher · y) hkey
  have hrecord : recordOf (Aes.invCipher s'.key y) = recordOf (Aes.invCipher s.key y) := congrArg recordOf hblk
  refine ⟨rfl, (hcount s').trans (hcount s).symm, ?advanceMem, fun _ => ?record, fun hrec => ?noRecord⟩
  case advanceMem =>
    rw [hcount]
    decide
  case record =>
    exact ⟨hblk, rfl, congrArg TelemetryRecord.temperature hrecord, congrArg TelemetryRecord.humidity hrecord,
      congrArg TelemetryRecord.battery hrecord⟩
  case noRecord => simp [finishDecoded] at hrec

/-- PROCESS in two states with one configuration and one frame: the filter answers alike, and so does the key check. -/
theorem execProcess_sameResults {s s' t : State} (hconfig : SameConfiguration s s') (hlen : s'.frameLen = s.frameLen)
    (hframe : s'.frame = s.frame) (hframeW : s'.frameW = s.frameW) (h : execProcess s = .next t) :
    ∃ u, execProcess s' = .next u ∧ SameResults s t s' u := by
  obtain ⟨hsig, hsigW, hkey, hkeyW, hverbose, hlocked⟩ := hconfig
  have hfilter : filterFn s' = filterFn s :=
    filterFn_congr hlen (fun _ => by rw [readCandidate, readCandidate, hframe, hframeW])
      (fun _ => by rw [readSignature, readSignature, hsig, hsigW])
      (fun _ => by rw [readCiphertext, readCiphertext, hframe, hframeW])
  have hcomplete : keyComplete s' = keyComplete s := by rw [keyComplete, keyComplete, hkeyW]
  rcases execProcess_next h with ⟨hl, rfl⟩ | ⟨hl, v, hv, ⟨hne, rfl⟩ | ⟨ct, rfl, ⟨hk, rfl⟩ | ⟨hk, rfl⟩⟩⟩
  · exact ⟨_, execProcess_of_unlocked (hlocked.trans hl), sameResults_finish hverbose _ _ _⟩
  · exact ⟨_, execProcess_of_rejected (hlocked.trans hl) (hfilter.trans hv) hne, sameResults_finish hverbose _ _ _⟩
  · exact ⟨_, execProcess_of_keyIncomplete (hlocked.trans hl) (hcomplete.trans hk) (hfilter.trans hv),
      sameResults_finish hverbose _ _ _⟩
  · exact ⟨_, execProcess_of_accepted (hlocked.trans hl) (hcomplete.trans hk) (hfilter.trans hv),
      sameResults_finishDecoded hkey true ct⟩

/-- DECODE in two states with one configuration and one block. -/
theorem execDecode_sameResults {s s' t : State} (hconfig : SameConfiguration s s') (hblk : s'.blk = s.blk)
    (hblkW : s'.blkW = s.blkW) (h : execDecode s = .next t) :
    ∃ u, execDecode s' = .next u ∧ SameResults s t s' u := by
  obtain ⟨-, -, hkey, hkeyW, hverbose, -⟩ := hconfig
  have hcomplete : keyComplete s' = keyComplete s := by rw [keyComplete, keyComplete, hkeyW]
  rcases execDecode_next h with ⟨hk, rfl⟩ | ⟨hk, hw, rfl⟩
  · exact ⟨_, execDecode_of_keyIncomplete (hcomplete.trans hk), sameResults_finish hverbose _ _ _⟩
  · refine ⟨_, execDecode_of_allWritten (hcomplete.trans hk) (hblkW ▸ hw), ?_⟩
    rw [hblk]
    exact sameResults_finishDecoded hkey false s.blk

/-- A command run again that writes the same leaves BLK and the result registers as the first run left them. -/
theorem SameResults.rerun {s t u : State} (h : SameResults s t t u) :
    u.blk = t.blk ∧ u.resTemp = t.resTemp ∧ u.resHum = t.resHum ∧ u.resBatt = t.resBatt := by
  obtain ⟨-, -, -, hrec, hnone⟩ := h
  cases hstatus : statusRec t.status with
  | true =>
    obtain ⟨hblk, -, htemp, hhum, hbatt⟩ := hrec hstatus
    exact ⟨hblk, htemp, hhum, hbatt⟩
  | false =>
    obtain ⟨-, -, -, -, -, hblk, -, htemp, hhum, hbatt⟩ := hnone hstatus
    exact ⟨hblk, htemp, hhum, hbatt⟩

/-- Settles O47: PROCESS leaves the configuration and the frame it reads, so the state after it is one to compare with. -/
theorem commandsIndependentOfHistory : Obligations.CommandsIndependentOfHistory := by
  refine ⟨fun s s' t => execProcess_sameResults, fun s s' t => execDecode_sameResults, fun s t h => ?_⟩
  obtain ⟨hframe, hframeW, hsig, hsigW, hkey, hkeyW, hverbose, -, -, hlocked, -, hlen⟩ :=
    commandsKeepFrameAndConfiguration .process .process s t rfl h
  obtain ⟨u, hu, hsame⟩ := execProcess_sameResults ⟨hsig, hsigW, hkey, hkeyW, hverbose, hlocked nofun⟩ (hlen nofun)
    hframe hframeW h
  obtain ⟨hblk, htemp, hhum, hbatt⟩ := hsame.rerun
  obtain ⟨hstatus, hadvance, hmem, -, -⟩ := hsame
  exact ⟨u, hu, hblk, htemp, hhum, hbatt, hstatus, hadvance, hmem⟩

end Sys2Proof.Machine

/-! With nothing issued, nothing happens (R234, R235). -/

namespace Sys2Proof.Machine

/-- Settles O12: an empty program is fetched as the host being idle. -/
theorem idleStepKeepsState : Obligations.IdleStepKeepsState := by
  intro s hp
  rw [step, hp, fetch_nil]

end Sys2Proof.Machine

/-! The bits of ERR that one transaction sets (R222, R223). -/

namespace Sys2Proof.Machine

/-- ERR is as before, or has one of its three named bits in addition (R26, R222). -/
def SetsAtMostOneErrBit (s t : State) : Prop :=
  ∃ bit ∈ [0x00#8, errLockedWrite, errBadCmd, errBadAccess], t.err = s.err ||| bit

theorem SetsAtMostOneErrBit.of_err_eq {s t : State} (h : t.err = s.err) : SetsAtMostOneErrBit s t :=
  ⟨0x00#8, by decide, h.trans BitVec.or_zero.symm⟩

/-- BAD_CMD is the one event a command can report (R205, R222). -/
theorem CommandNext.setsAtMostOneErrBit {c : Instr} {s t : State} (h : CommandNext s c t) :
    SetsAtMostOneErrBit s t := by
  cases h with
  | badCommand => exact ⟨errBadCmd, by decide, rfl⟩
  | _ => exact .of_err_eq rfl

/-- A write of a register byte other than ERR reports a locked configuration or a read-only register, never both (R69,
R71). -/
theorem setsAtMostOneErrBit_writeReg {r : Reg} (hr : r ≠ .err) (d : Byte) (s : State) :
    SetsAtMostOneErrBit s (writeReg r d s) := by
  cases r with
  | err => exact absurd rfl hr
  | cmd | ctrl | frameLenH | frameLenL | blk | frame => exact .of_err_eq rfl
  | sig i | key i =>
    rw [writeReg]
    split
    · exact ⟨errLockedWrite, by decide, rfl⟩
    · exact .of_err_eq rfl
  | _ => exact ⟨errBadAccess, by decide, rfl⟩

/-- A host write to an address other than those of CMD and ERR takes one arm of R62, which sets at most one bit of ERR
(R223). -/
theorem setsAtMostOneErrBit_execHtxWr {a d : Byte} {s t : State} (hcmd : a ≠ Reg.cmd.address)
    (herr : a ≠ Reg.err.address) (h : execHtxWr a d s = .next t) : SetsAtMostOneErrBit s t := by
  rcases execHtxWr_next h with ⟨ha, -⟩ | ⟨r, ha, -, rfl⟩ | ⟨-, rfl⟩
  · exact absurd (address_of_regAt ha).symm hcmd
  · have hr : r ≠ .err := by
      rintro rfl
      exact herr (address_of_regAt ha).symm
    exact setsAtMostOneErrBit_writeReg hr d s
  · exact ⟨errBadAccess, by decide, rfl⟩

/-- Settles O43: an instruction runs a command, reads, or writes at one address. -/
theorem transactionSetsAtMostOneErrorBit : Obligations.TransactionSetsAtMostOneErrorBit := by
  intro i s t h hne
  rcases exec_next h with ⟨c, -, hn⟩ | ⟨hc, -⟩
  · exact hn.setsAtMostOneErrBit
  · cases i with
    | htxRd a =>
      obtain ⟨v, -, rfl⟩ := execHtxRd_next h
      exact SetsAtMostOneErrBit.of_err_eq rfl
    | htxWr a d =>
      have hcmd : a ≠ Reg.cmd.address := by
        rintro rfl
        cases hc
      have herr : a ≠ Reg.err.address := by
        rintro rfl
        exact hne d rfl
      exact setsAtMostOneErrBit_execHtxWr hcmd herr h
    | _ => cases hc

end Sys2Proof.Machine

/-! The platform's reset: the step that performs it, and what the block holds after it (R250, R251). -/

namespace Sys2Proof.Machine

/-- Settles O11: the reset is fetched off the front of a legal program, and it spares the host's two lists alone. -/
theorem platformResetStep : Obligations.PlatformResetStep := by
  intro s rest hp hrest
  calc step s = .next (resetBlock (withProgram rest s)) := by rw [step, hp, fetch_reset hrest]
    _ = .next { State.reset with program := rest, reads := s.reads } := rfl

/-- The register bytes of R251's table that stand outside the byte arrays. -/
def scalarRegs : List Reg :=
  [.cmd, .status, .ctrl, .err, .decCount, .frameLenH, .frameLenL, .sigValid, .keyValidH, .keyValidL, .resTempH,
   .resTempL, .resHumH, .resHumL, .resBatt]

theorem readReg_reset_of_mem_scalarRegs {r : Reg} (h : r ∈ scalarRegs) : readReg r State.reset = .ok 0x00#8 := by
  cases r with
  | sig | key | blk | frame => simp [scalarRegs] at h
  | _ => rfl

/-- Settles O13: the scalar registers read as 0x00 and so does KEY; the written-bits of the other arrays are all 0, so
each of their bytes faults. -/
theorem resetValues : Obligations.ResetValues := by
  refine ⟨?scalar, fun i => ?sig, fun i => readReturns_address (r := .key i) rfl, fun i => ?blk, fun i => ?frame,
    rfl, rfl⟩
  case scalar =>
    intro a ha
    obtain ⟨r, hr, rfl⟩ : ∃ r ∈ scalarRegs, r.address = a := List.mem_map.1 ha
    exact readReturns_address (readReg_reset_of_mem_scalarRegs hr)
  case sig => exact (htxRd_of_readReg_eq_ite (r := .sig i) (readSigByte_eq i State.reset)).2 BitVec.getLsbD_zero
  case blk => exact (htxRd_of_readReg_eq_ite (r := .blk i) (readBlkByte_eq i State.reset)).2 BitVec.getLsbD_zero
  case frame => exact (htxRd_of_readReg_eq_ite (r := .frame i) (readFrameByte_eq i State.reset)).2 BitVec.getLsbD_zero

/-- Settles O35: the state after reset is itself a reset block. -/
theorem resetIsLegal : Obligations.ResetIsLegal := legalState_resetBlock State.reset

end Sys2Proof.Machine

/-! A run performs the host's program one event a step, and records one value for each of its reads (R263). -/

namespace Sys2Proof.Machine

/-- The host has recorded `n` more values in `t` than in `s`, after those it had. -/
def RecordsReads (n : Nat) (s t : State) : Prop :=
  ∃ new : List Byte, t.reads = s.reads ++ new ∧ new.length = n

theorem RecordsReads.of_reads_eq {s t : State} (h : t.reads = s.reads) : RecordsReads 0 s t :=
  ⟨[], by rw [h, List.append_nil], rfl⟩

theorem RecordsReads.trans {m n : Nat} {s t u : State} (h : RecordsReads m s t) (h' : RecordsReads n t u) :
    RecordsReads (m + n) s u := by
  obtain ⟨new, ht, hm⟩ := h
  obtain ⟨new', hu, hn⟩ := h'
  exact ⟨new ++ new', by rw [hu, ht, List.append_assoc], by rw [List.length_append, hm, hn]⟩

/-- An instruction returns a value to the host exactly when it is a host read (R61). -/
def instrReads : Instr → Nat
  | .htxRd _ => 1
  | _ => 0

theorem readCount_transaction {item : RawItem} {i : Instr} (hi : decode item = .ok i) (rest : List HostEvent) :
    readCount (.transaction item :: rest) = instrReads i + readCount rest := by
  cases i with
  | htxRd a => simp only [readCount, hi, instrReads, Nat.add_comm]
  | _ => simp only [readCount, hi, instrReads, Nat.zero_add]

/-- What the host has still to do and what it has read are the same in both states (R13, R263). -/
structure KeepsHostLists (s t : State) : Prop where
  program : t.program = s.program
  reads : t.reads = s.reads

theorem CommandNext.keepsHostLists {c : Instr} {s t : State} (h : CommandNext s c t) : KeepsHostLists s t := by
  cases h with
  | _ => exact ⟨rfl, rfl⟩

theorem keepsHostLists_writeReg (r : Reg) (d : Byte) (s : State) : KeepsHostLists s (writeReg r d s) := by
  cases r with
  | sig i | key i =>
    rw [writeReg]
    split <;> exact ⟨rfl, rfl⟩
  | _ => exact ⟨rfl, rfl⟩

theorem execHtxWr_keepsHostLists {a d : Byte} {s t : State} (h : execHtxWr a d s = .next t) : KeepsHostLists s t := by
  rcases execHtxWr_next h with ⟨-, hx⟩ | ⟨r, -, -, rfl⟩ | ⟨-, rfl⟩
  · obtain ⟨e, he⟩ := encode_decodeCmd8_isCmd8 d
    rw [execute_eq_exec_decodeCmd8] at hx
    exact (exec_command_next he hx).keepsHostLists
  · exact keepsHostLists_writeReg r d s
  · exact ⟨rfl, rfl⟩

/-- No instruction touches what the host has still to do, and a host read alone records a value. -/
theorem exec_recordsReads {i : Instr} {s t : State} (h : exec i s = .next t) :
    t.program = s.program ∧ RecordsReads (instrReads i) s t := by
  cases i with
  | htxRd a =>
    obtain ⟨v, -, rfl⟩ := execHtxRd_next h
    exact ⟨rfl, [v], rfl, rfl⟩
  | htxWr a d =>
    obtain ⟨hprogram, hreads⟩ := execHtxWr_keepsHostLists h
    exact ⟨hprogram, .of_reads_eq hreads⟩
  | _ =>
    obtain ⟨hprogram, hreads⟩ := (exec_command_next rfl h).keepsHostLists
    exact ⟨hprogram, .of_reads_eq hreads⟩

/-- A step that answers a next state performs the first event of the program. -/
theorem step_performs {s t : State} {e : HostEvent} {rest : List HostEvent} (hp : s.program = e :: rest)
    (h : step s = .next t) :
    t.program = rest ∧ ∃ n, RecordsReads n s t ∧ readCount (e :: rest) = n + readCount rest := by
  rcases step_next h with ⟨-, ⟨hnil, -⟩ | ⟨rest', hp', rfl⟩ | ⟨item, rest', i, hp', hi, hx⟩⟩
  · exact absurd (hp.symm.trans hnil) nofun
  · obtain ⟨rfl, rfl⟩ := List.cons.inj (hp.symm.trans hp')
    exact ⟨rfl, 0, .of_reads_eq rfl, (Nat.zero_add _).symm⟩
  · obtain ⟨rfl, rfl⟩ := List.cons.inj (hp.symm.trans hp')
    obtain ⟨hprogram, hreads⟩ := exec_recordsReads hx
    exact ⟨hprogram, instrReads i, hreads, readCount_transaction hi rest⟩

/-- A run of a machine that ends in a state went on from the state its first step answered. -/
theorem run_succ_next {M : Host.Core} {k : Nat} {s t : M.State} (h : M.run (k + 1) s = .next t) :
    ∃ u, M.step s = .next u ∧ M.run k u = .next t := by
  rw [Host.Core.run] at h
  split at h
  case h_1 u hu => exact ⟨u, hu, h⟩
  all_goals cases h

/-- By induction on the program: as many steps as it has events perform it whole. -/
theorem run_length_performs (p : List HostEvent) {s t : State} (hp : s.program = p)
    (h : Host.Core.run core p.length s = .next t) : t.program = [] ∧ RecordsReads (readCount p) s t := by
  induction p generalizing s with
  | nil =>
    obtain rfl : s = t := Host.Outcome.next.inj h
    exact ⟨hp, .of_reads_eq rfl⟩
  | cons e rest ih =>
    obtain ⟨u, hstep, hrun⟩ := run_succ_next h
    obtain ⟨hrest, n, hfirst, hcount⟩ := step_performs hp hstep
    obtain ⟨hnil, hothers⟩ := ih hrest hrun
    exact ⟨hnil, hcount ▸ hfirst.trans hothers⟩

theorem runToEnd_of_runResult {s t : State} {r : List Byte} (h : runResult s = some (t, r)) :
    runToEnd s = .next t ∧ r = t.reads := by
  rw [runResult] at h
  split at h
  case h_1 u hu =>
    obtain ⟨rfl, rfl⟩ := Prod.mk.inj (Option.some.inj h)
    exact ⟨hu, rfl⟩
  all_goals cases h

/-- Settles O51: the run to the end has one step for each event of the program. -/
theorem runPerformsWholeProgram : Obligations.RunPerformsWholeProgram := by
  intro s t r h
  obtain ⟨hrun, rfl⟩ := runToEnd_of_runResult h
  exact run_length_performs s.program rfl hrun

end Sys2Proof.Machine
